-- ==== Sys2Proof/Word.lean ====
section
/-! DEFINITION. The word types of the CAN framing block (CFB): every width the spec fixes or decides (spec/00_scope.md R7, R8).
All quantities are unsigned (R175). -/

namespace Sys2Proof

/-- A byte is 8 bits (R60). -/
abbrev Byte := BitVec 8

/-- The 11-bit identifier of a frame (ID_W, R7, R80). -/
abbrev Ident := BitVec 11

/-- The 9-bit key index that addresses RA and RAB (R84, R103). -/
abbrev Key := BitVec 9

/-- The priority field (PRIO_W = 2, R7, R82). -/
abbrev Prio := BitVec 2

/-- The address field (ADDR_W = 4, R7, R82). -/
abbrev Addr := BitVec 4

/-- The sequence tag field (SEQ_W = 2, R7, R82). -/
abbrev SeqTag := BitVec 2

/-- The type-id field (TYPE_W = 3, R7, R82). -/
abbrev TypeId := BitVec 3

/-- A time value: TIME_W = 32 bits (R8, decision D2; assumption log 4). -/
abbrev Time := BitVec 32

/-- A byte count: LEN_W = 16 bits (R8, decision D7; assumption log 5). -/
abbrev Len := BitVec 16

/-- A retry count: RETRY_W = 8 bits (R8, decision D15; assumption log 5). -/
abbrev Retry := BitVec 8

end Sys2Proof
end

