-- ==== Sys2Proof/Config.lean ====
section
/-! DEFINITION. What the source or the spec fixes once for a block (spec/00_scope.md R7, R8), the parameters of one instance,
and the values the spec leaves unspecified (opaque: nothing in Lean can evaluate them). -/

namespace Sys2Proof

/-- ACK_TYPE = 7, the reserved type-id of acknowledgment frames (R7). -/
def Config.ackType : TypeId := 7

/-- BROADCAST_ADDR = 15 (R7, R82). The block treats it like any other address (R132, R90), so no operation reads this
constant. -/
def Config.broadcastAddr : Addr := 15

/-- MAX_DLC = 8, the largest payload of one frame in bytes (R7). -/
def Config.maxDlc : Nat := 8

/-- RA_TIMEOUT = 500 time units (R7). -/
def Config.raTimeout : Nat := 500

/-- ACK_TIMEOUT = 100 time units (R7). -/
def Config.ackTimeout : Nat := 100

/-- CRC_POLY = 0x31 (R7). -/
def Config.crcPoly : Byte := 0x31

/-- CRC_INIT = 0x00 (R7). -/
def Config.crcInit : Byte := 0x00

/-- TIME_UNIT, the physical length of one time unit: OPEN, "no rule depends on it" (R8, decision D2; assumption log 6). -/
opaque Config.unstatedTimeUnit : Nat

/-- The parameters that R8 and R83 leave to one instance of the block and that no operation changes (R46).
They stand in the state as plain data, so that a statement over all states is a statement over all their values
(assumption log 6). -/
structure Params where
  /-- SEQ_START, the code of a first fragment (R83, decision D1). -/
  seqStart : SeqTag
  /-- SEQ_MIDDLE, the code of a fragment in between (R83, decision D1). -/
  seqMiddle : SeqTag
  /-- SEQ_END, the code of a last fragment (R83, decision D1). -/
  seqEnd : SeqTag
  /-- SEQ_SINGLE, the code of a frame that is the whole message (R83, decision D1). -/
  seqSingle : SeqTag
  /-- RA_CAP: the largest number of accumulated bytes of one reassembly entry; `none` is RA_CAP = ∞, which "reproduces D00
  exactly" (R8, decision D6). -/
  raCap : Option Nat
  /-- TX_CAP: the largest payload length a SEND accepts (R8). -/
  txCap : Nat
  /-- RETRY_LIMIT_RESET: the retry limit after reset (R8). -/
  retryLimitReset : Retry
  /-- ACK_PRIO: the priority of an emitted acknowledgment, one entry for each priority acknowledged (R8, OPEN). -/
  ackPrio : Vector Prio 4
  /-- TIME_UNIT: the physical length of one time unit, in a measure that nothing fixes; no operation reads it (R8, R12). -/
  timeUnit : Nat
deriving DecidableEq, Repr

/-- The defaults of R8 and R83: codes 0, 1, 2, 3, RA_CAP 256, TX_CAP 255, RETRY_LIMIT_RESET 0, ACK_PRIO the identity (copy).
TIME_UNIT has none. -/
def Params.default : Params :=
  { seqStart := 0, seqMiddle := 1, seqEnd := 2, seqSingle := 3, raCap := some 256, txCap := 255, retryLimitReset := 0
    ackPrio := #v[0, 1, 2, 3], timeUnit := Config.unstatedTimeUnit }

/-- The four sequence codes are "pairwise distinct 2-bit values" (R83). -/
abbrev Params.SeqDistinct (p : Params) : Prop :=
  p.seqStart ≠ p.seqMiddle ∧ p.seqStart ≠ p.seqEnd ∧ p.seqStart ≠ p.seqSingle ∧ p.seqMiddle ≠ p.seqEnd ∧
    p.seqMiddle ≠ p.seqSingle ∧ p.seqEnd ≠ p.seqSingle

/-- The constraints that 93_implementation_defined.md section 1 puts on the parameters, with LEN_W = 16. -/
abbrev Params.Ok (p : Params) : Prop :=
  p.SeqDistinct ∧ (∀ c ∈ p.raCap, 62 ≤ c ∧ c < 2 ^ 16) ∧ 61 ≤ p.txCap ∧ p.txCap ≤ 2 ^ 16 - 2

/-- REG[t].size after the n-th reset: unspecified (R215; assumption log 7). Arguments: n, t. -/
opaque Config.unspecifiedRegSize : Nat → Nat → Len

/-- TX.prio after the n-th reset: unspecified (R215; assumption log 7). -/
opaque Config.unspecifiedTxPrio : Nat → Prio

/-- TX.addr after the n-th reset: unspecified (R215; assumption log 7). -/
opaque Config.unspecifiedTxAddr : Nat → Addr

/-- TX.type after the n-th reset: unspecified (R215; assumption log 7). -/
opaque Config.unspecifiedTxType : Nat → TypeId

/-- TX.multi after the n-th reset: unspecified (R215; assumption log 7). -/
opaque Config.unspecifiedTxMulti : Nat → Bool

/-- TX.slen after the n-th reset: unspecified (R215; assumption log 7). -/
opaque Config.unspecifiedTxSlen : Nat → Len

/-- TX.nfrag after the n-th reset: unspecified (R215; assumption log 7). -/
opaque Config.unspecifiedTxNfrag : Nat → Len

/-- TX.idx after the n-th reset: unspecified (R215; assumption log 7). -/
opaque Config.unspecifiedTxIdx : Nat → Len

/-- TX.retries after the n-th reset: unspecified (R215; assumption log 7). -/
opaque Config.unspecifiedTxRetries : Nat → Retry

/-- TX.wait_start after the n-th reset: unspecified (R215; assumption log 7). -/
opaque Config.unspecifiedTxWaitStart : Nat → Time

/-- RA[k].ts after the n-th reset: unspecified (R215; assumption log 7). Arguments: n, k. -/
opaque Config.unspecifiedRaTs : Nat → Nat → Time

/-- RA[k].len after the n-th reset: unspecified (R215; assumption log 7). Arguments: n, k. -/
opaque Config.unspecifiedRaLen : Nat → Nat → Nat

/-- What EXPIRED answers for an entry that is not valid, where R126 does not evaluate it (assumption log 15).
Arguments: the free-value counter, the key index, the time. -/
opaque Config.unstatedExpired : Nat → Key → Time → Bool

end Sys2Proof
end

