-- ==== Sys2Proof/Syntax.lean ====
section
/-! DEFINITION. The syntax of the block: frames, identifier fields, and the operations of spec/opcode_table.json, one
constructor of `Instr` for each row. An operation is the block's analogue of an instruction (spec/00_scope.md section 8). -/

namespace Sys2Proof

/-- A frame `(id, len, data)` (R80). The payload is a list of exactly len bytes, so len is `data.length`
(93_implementation_defined.md section 2). -/
structure Frame where
  id : Ident
  data : List Byte
deriving DecidableEq, Repr

/-- The four fields of an identifier (R81). -/
structure Fields where
  prio : Prio
  addr : Addr
  seq : SeqTag
  typ : TypeId
deriving DecidableEq, Repr

/-- TX.state (R26): a 2-bit register with three legal values; code 3 is never written by any rule. -/
inductive TxState where
  | idle
  | sending
  | waitAck
  | reserved3
deriving DecidableEq, Repr

/-- The operations, one constructor per row of spec/opcode_table.json, in the table's order.
`now` is the time input of the operation (R44); the length of an inbound frame is the length of its data (R41). -/
inductive Instr where
  /-- RX_ACK: an inbound frame of type 7, any sequence value (R160). -/
  | rxAck (prio : Prio) (addr : Addr) (seq : SeqTag) (data : List Byte) (now : Time)
  /-- RX_START: an inbound data frame tagged Start (R122). -/
  | rxStart (prio : Prio) (addr : Addr) (typ : TypeId) (data : List Byte) (now : Time)
  /-- RX_MIDDLE: an inbound data frame tagged Middle (R123). -/
  | rxMiddle (prio : Prio) (addr : Addr) (typ : TypeId) (data : List Byte) (now : Time)
  /-- RX_END: an inbound data frame tagged End (R124). -/
  | rxEnd (prio : Prio) (addr : Addr) (typ : TypeId) (data : List Byte) (now : Time)
  /-- RX_SINGLE: an inbound data frame tagged Single (R121). -/
  | rxSingle (prio : Prio) (addr : Addr) (typ : TypeId) (data : List Byte) (now : Time)
  /-- NOP: command op 0 (R173). -/
  | nop
  /-- CFG_RETRY(limit): command op 1 (R170). -/
  | cfgRetry (limit : Retry)
  /-- REG(type, size): command op 2 (R171). -/
  | reg (typ : TypeId) (size : Len)
  /-- SEND(prio, addr, type, m): command op 3 (R140 to R142); L is the length of m. -/
  | send (prio : Prio) (addr : Addr) (typ : TypeId) (m : List Byte)
  /-- RESET: command op 4, and the hardware reset input (R174). -/
  | reset
  /-- Command op 5, reserved (R90). -/
  | cmdReserved5
  /-- Command op 6, reserved (R90). -/
  | cmdReserved6
  /-- Command op 7, reserved (R90). -/
  | cmdReserved7
  /-- TX_IDLE: the TX step selected by TX.state = 0 (R145). -/
  | txIdle
  /-- TX_FRAG(now, tx_ok): the TX step selected by TX.state = 1 (R146). -/
  | txFrag (now : Time) (txOk : Bool)
  /-- TX_WAIT(now): the TX step selected by TX.state = 2 (R151). -/
  | txWait (now : Time)
  /-- The TX step of TX.state = 3, which has no meaning (R90, R26). -/
  | txStateReserved3
  /-- ENC: the function port takes 8 bits for each field (R100). -/
  | enc (p a s t : Byte)
  /-- DEC(id) (R101). -/
  | dec (id : Ident)
  /-- RKEY(id) (R102). -/
  | rkey (id : Ident)
  /-- KIDX(id) (R103). -/
  | kidx (id : Ident)
  /-- CRC8_STEP(c, b) (R110). -/
  | crc8Step (c b : Byte)
  /-- CRC8(bytes) (R111). -/
  | crc8 (bytes : List Byte)
  /-- FRAG(p, a, t, m): a definition, not a hardware port (R143). -/
  | frag (prio : Prio) (addr : Addr) (typ : TypeId) (m : List Byte)
  /-- CKSUM_OK(acc): the validator called by RX_END (R112). -/
  | cksumOk (acc : List Byte)
  /-- EXPIRED(k, now): the predicate called by LOOKUP (R126). -/
  | expired (k : Key) (now : Time)
  /-- LOOKUP(k, now): the shared precondition of RX_MIDDLE and RX_END (R125). -/
  | lookup (k : Key) (now : Time)
  /-- DISPATCH(t, bytes): the delivery filter called by RX_SINGLE and RX_END (R172). -/
  | dispatch (typ : TypeId) (bytes : List Byte)
  /-- ACK_EMIT(p, a, t): the acknowledgment frame emitted by RX_END on success (R161). -/
  | ackEmit (prio : Prio) (addr : Addr) (typ : TypeId)
deriving DecidableEq, Repr

end Sys2Proof
end

