-- ==== Sys2Proof/Machine/Operands.lean ====
section
/-! DEFINITION. The operand forms and the stateless units: the identifier codec (spec/40_codec.md), the checksum unit
(spec/41_checksum.md), elapsed time (R44, R177) and the cutting of a message into frames (R94, R143, R144). -/

namespace Sys2Proof.Machine

/-- The identifier whose fields already have their widths (R81). -/
def packId (p : Prio) (a : Addr) (s : SeqTag) (t : TypeId) : Ident := p ++ a ++ s ++ t

/-- ENC: operands of any width, each truncated to its field before packing (R89, R100). -/
def enc {w : Nat} (p a s t : BitVec w) : Ident :=
  packId (p.setWidth 2) (a.setWidth 4) (s.setWidth 2) (t.setWidth 3)

/-- DEC: the four slices of an identifier (R101). -/
def dec (id : Ident) : Fields :=
  { prio := id.extractLsb' 9 2, addr := id.extractLsb' 5 4, seq := id.extractLsb' 3 2, typ := id.extractLsb' 0 3 }

/-- RKEY: the identifier with its sequence bits masked out (R84, R102). -/
def rkey (id : Ident) : Ident := id &&& 0x7E7#11

/-- KIDX: the routing key compacted to 9 bits, id[10:5] over id[2:0] (R84, R103). -/
def kidx (id : Ident) : Key := id.extractLsb' 5 6 ++ id.extractLsb' 0 3

/-- One of the eight iterations of CRC8_STEP: shift left, and XOR the polynomial if the top bit was set (R110). -/
def crcShift (v : Byte) : Byte := if v.msb then (v <<< 1) ^^^ Config.crcPoly else v <<< 1

/-- `n` iterations of `crcShift`. -/
def crcShifts : Nat → Byte → Byte
  | 0, v => v
  | n + 1, v => crcShifts n (crcShift v)

/-- CRC8_STEP(c, b) (R110). -/
def crc8Step (c b : Byte) : Byte := crcShifts 8 (c ^^^ b)

/-- CRC8(bytes), first byte first (R111). -/
def crc8 (bytes : List Byte) : Byte := bytes.foldl crc8Step Config.crcInit

/-- CKSUM_OK(acc): the last byte against the checksum of the bytes before it, and those bytes (R112).
`none` for the empty sequence, which R112 excludes. -/
def cksumOk (acc : List Byte) : Option (Bool × List Byte) :=
  match acc.getLast? with
  | none => none
  | some c => some (crc8 acc.dropLast == c, acc.dropLast)

/-- elapsed(now, ts) = (now - ts) mod 2^TIME_W (R44, R177). -/
def elapsed (now ts : Time) : Time := now - ts

/-- A message is multi-frame when it is longer than 8 bytes (R141, R143, R178). -/
def isMulti (m : List Byte) : Bool := decide (Config.maxDlc < m.length)

/-- The stream cut into frames: the message, followed by its checksum byte when it is multi-frame (R28, R63). -/
def stream (m : List Byte) : List Byte := if isMulti m then m ++ [crc8 m] else m

/-- The number of frames of one attempt: 1, or ceil((L + 1) / 8) (R28, R94). -/
def frameCount (m : List Byte) : Nat := if isMulti m then (m.length + 1 + 7) / 8 else 1

/-- The sequence tag of fragment `j` of `n` (R144). -/
def seqTag (par : Params) (multi : Bool) (n j : Nat) : SeqTag :=
  if multi = false then par.seqSingle
  else if j = 0 then par.seqStart
  else if j = n - 1 then par.seqEnd
  else par.seqMiddle

/-- The length of fragment `j` of a stream of `slen` bytes: min(8, slen - 8 j) (R143, R146). -/
def fragLen (slen j : Nat) : Nat := min Config.maxDlc (slen - 8 * j)

/-- Fragment `j` of a multi-frame message (R94, R143). -/
def fragment (par : Params) (p : Prio) (a : Addr) (t : TypeId) (m : List Byte) (j : Nat) : Frame :=
  { id := packId p a (seqTag par (isMulti m) (frameCount m) j) t
    data := ((stream m).drop (8 * j)).take (fragLen (stream m).length j) }

/-- FRAG(p, a, t, m): the frames of one attempt, in order (R143). -/
def frag (par : Params) (p : Prio) (a : Addr) (t : TypeId) (m : List Byte) : List Frame :=
  (List.range (frameCount m)).map (fragment par p a t m)

/-- The acknowledgment frame for a message of type `t`: sequence Single, type 7, one byte equal to `t` (R85, R161).
`p` is the priority already chosen by ACK_PRIO. -/
def ackFrame (par : Params) (p : Prio) (a : Addr) (t : TypeId) : Frame :=
  { id := packId p a par.seqSingle Config.ackType, data := [t.setWidth 8] }

end Sys2Proof.Machine
end

