-- ==== Sys2Proof/WellFormed.lean ====
section
/-! DEFINITION. Which operations the spec admits: the operand ranges that a field's width does not already say. -/

namespace Sys2Proof

/-- The operand ranges of the spec beyond the field widths.
An inbound frame holds at most 8 bytes (R41, R80); a data frame's type is not 7 (R86); L has LEN_W bits (R87);
CKSUM_OK takes at least one byte (R112); DISPATCH and ACK_EMIT never see type 7 (R172, R85). -/
def Instr.wellFormed : Instr → Bool
  | .rxAck _ _ _ data _ => decide (data.length ≤ Config.maxDlc)
  | .rxStart _ _ t data _ => decide (t ≠ Config.ackType) && decide (data.length ≤ Config.maxDlc)
  | .rxMiddle _ _ t data _ => decide (t ≠ Config.ackType) && decide (data.length ≤ Config.maxDlc)
  | .rxEnd _ _ t data _ => decide (t ≠ Config.ackType) && decide (data.length ≤ Config.maxDlc)
  | .rxSingle _ _ t data _ => decide (t ≠ Config.ackType) && decide (data.length ≤ Config.maxDlc)
  | .nop => true
  | .cfgRetry _ => true
  | .reg _ _ => true
  | .send _ _ _ m => decide (m.length < 2 ^ 16)
  | .reset => true
  | .cmdReserved5 => true
  | .cmdReserved6 => true
  | .cmdReserved7 => true
  | .txIdle => true
  | .txFrag _ _ => true
  | .txWait _ => true
  | .txStateReserved3 => true
  | .enc _ _ _ _ => true
  | .dec _ => true
  | .rkey _ => true
  | .kidx _ => true
  | .crc8Step _ _ => true
  | .crc8 _ => true
  | .frag _ _ _ _ => true
  | .cksumOk acc => decide (1 ≤ acc.length)
  | .expired _ _ => true
  | .lookup _ _ => true
  | .dispatch t _ => decide (t ≠ Config.ackType)
  | .ackEmit _ _ t => decide (t ≠ Config.ackType)

/-- The check as a proposition. -/
abbrev Instr.WellFormed (i : Instr) : Prop := i.wellFormed = true

end Sys2Proof
end

