-- ==== Sys2Proof/Decode.lean ====
section
/-! DEFINITION. The decoder and the encoder. The spec gives the bits that select an operation and the widths of its operands
(spec/30_encoding.md R81, R86, R87, R88, R90). It gives no layout of a transaction in bytes: `Packet` is the model's own
(DESIGN CHOICE, assumption log 8). -/

namespace Sys2Proof

/-- The function ports (R45): each is its own port, with no selecting bits (R88). -/
inductive FnPort where
  | enc | dec | rkey | kidx | crc8Step | crc8
deriving DecidableEq, Repr

/-- Where an operation is presented: the command port (R43, R87), TPORT_RX (R41), the transmit engine, whose selecting
bits are TX.state (R88), or a function port (R45). -/
inductive Port where
  | cmd
  | rx
  | txe
  | fn (f : FnPort)
deriving DecidableEq, Repr

/-- One transaction as bytes: its selecting bits and its operands. -/
structure Packet where
  port : Port
  bytes : List Byte
deriving DecidableEq, Repr

/-- Why a packet is no operation. -/
inductive DecodeError where
  /-- An inbound frame with len 9..15: "cannot be presented; a model refuses such an input" (R90). -/
  | illegalFrameLength
  /-- The packet has fewer or more bytes than its operation's operands take (no transaction of the spec has this form). -/
  | wrongByteCount
  /-- A bit is set outside the operand's width (no transaction of the spec has this form). -/
  | bitsOutsideField
deriving DecidableEq, Repr

/-- TX.state's codes (R26, decision D28). -/
def TxState.code : TxState → BitVec 2
  | .idle => 0
  | .sending => 1
  | .waitAck => 2
  | .reserved3 => 3

/-- The value of TX.state with a given code (R26). -/
def TxState.ofCode (c : BitVec 2) : TxState :=
  if c = 0 then .idle else if c = 1 then .sending else if c = 2 then .waitAck else .reserved3

/-- A value of `w` bits from a byte whose other bits must be 0. -/
def byteField (w : Nat) (b : Byte) : Except DecodeError (BitVec w) :=
  if b.toNat < 2 ^ w then .ok (b.setWidth w) else .error .bitsOutsideField

/-- A value of `w` bits from two bytes, the low byte first, whose other bits must be 0. -/
def pairField (w : Nat) (lo hi : Byte) : Except DecodeError (BitVec w) :=
  if (hi ++ lo).toNat < 2 ^ w then .ok ((hi ++ lo).setWidth w) else .error .bitsOutsideField

/-- The two bytes of a value, the low byte first. -/
def pairBytes {w : Nat} (v : BitVec w) : List Byte := [(v.setWidth 16).extractLsb' 0 8, (v.setWidth 16).extractLsb' 8 8]

/-- The receive operation of an inbound frame of a block with parameters `par` (R83), tried in the order of R86: type 7 first,
then the sequence tag. -/
def classify (par : Params) (id : Ident) (data : List Byte) (now : Time) : Instr :=
  let f := Machine.dec id
  if f.typ = Config.ackType then .rxAck f.prio f.addr f.seq data now
  else if f.seq = par.seqStart then .rxStart f.prio f.addr f.typ data now
  else if f.seq = par.seqMiddle then .rxMiddle f.prio f.addr f.typ data now
  else if f.seq = par.seqEnd then .rxEnd f.prio f.addr f.typ data now
  else .rxSingle f.prio f.addr f.typ data now

/-- A TPORT_RX transaction: identifier (two bytes), len (one byte), then len data bytes (R41, R80). -/
def decodeRx (par : Params) (bytes : List Byte) (now : Time) : Except DecodeError Instr :=
  match bytes with
  | lo :: hi :: len :: data =>
    match pairField 11 lo hi, byteField 4 len with
    | .ok id, .ok n =>
      if Config.maxDlc < n.toNat then .error .illegalFrameLength
      else if data.length = n.toNat then .ok (classify par id data now)
      else .error .wrongByteCount
    | _, _ => .error .bitsOutsideField
  | _ => .error .wrongByteCount

/-- CFG_RETRY's operand: limit (R87). -/
def decodeCfgRetry : List Byte → Except DecodeError Instr
  | [limit] => .ok (.cfgRetry limit)
  | _ => .error .wrongByteCount

/-- REG's operands: type, size (R87). -/
def decodeReg : List Byte → Except DecodeError Instr
  | [t, lo, hi] =>
    match byteField 3 t, pairField 16 lo hi with
    | .ok typ, .ok size => .ok (.reg typ size)
    | _, _ => .error .bitsOutsideField
  | _ => .error .wrongByteCount

/-- SEND's operands: prio, addr, type, L, then the L bytes of m (R87). -/
def decodeSend : List Byte → Except DecodeError Instr
  | p :: a :: t :: lo :: hi :: m =>
    match byteField 2 p, byteField 4 a, byteField 3 t, pairField 16 lo hi with
    | .ok prio, .ok addr, .ok typ, .ok len =>
      if m.length = len.toNat then .ok (.send prio addr typ m) else .error .wrongByteCount
    | _, _, _, _ => .error .bitsOutsideField
  | _ => .error .wrongByteCount

/-- A command without operands. -/
def decodeBare (i : Instr) : List Byte → Except DecodeError Instr
  | [] => .ok i
  | _ => .error .wrongByteCount

/-- A command: the op code in the first byte, then its operands (R87). -/
def decodeCmd (bytes : List Byte) : Except DecodeError Instr :=
  match bytes with
  | [] => .error .wrongByteCount
  | b :: operands =>
    if b = 0 then decodeBare .nop operands
    else if b = 1 then decodeCfgRetry operands
    else if b = 2 then decodeReg operands
    else if b = 3 then decodeSend operands
    else if b = 4 then decodeBare .reset operands
    else if b = 5 then decodeBare .cmdReserved5 operands
    else if b = 6 then decodeBare .cmdReserved6 operands
    else if b = 7 then decodeBare .cmdReserved7 operands
    else .error .bitsOutsideField

/-- The transmit-engine step that TX.state selects (R88). -/
def txStep (st : TxState) (now : Time) (txOk : Bool) : Instr :=
  match st with
  | .idle => .txIdle
  | .sending => .txFrag now txOk
  | .waitAck => .txWait now
  | .reserved3 => .txStateReserved3

/-- A transmit-engine step: the two selecting bits are TX.state (R88). -/
def decodeTxe (bytes : List Byte) (now : Time) (txOk : Bool) : Except DecodeError Instr :=
  match bytes with
  | [b] =>
    match byteField 2 b with
    | .ok c => .ok (txStep (TxState.ofCode c) now txOk)
    | .error e => .error e
  | _ => .error .wrongByteCount

/-- A function port whose operand is an identifier. -/
def decodeIdCall (f : Ident → Instr) (bytes : List Byte) : Except DecodeError Instr :=
  match bytes with
  | [lo, hi] =>
    match pairField 11 lo hi with
    | .ok id => .ok (f id)
    | .error e => .error e
  | _ => .error .wrongByteCount

/-- A call of a function port: the port selects the function (R45, R88). -/
def decodeFn (f : FnPort) (bytes : List Byte) : Except DecodeError Instr :=
  match f with
  | .enc =>
    match bytes with
    | [p, a, s, t] => .ok (.enc p a s t)
    | _ => .error .wrongByteCount
  | .dec => decodeIdCall .dec bytes
  | .rkey => decodeIdCall .rkey bytes
  | .kidx => decodeIdCall .kidx bytes
  | .crc8Step =>
    match bytes with
    | [c, b] => .ok (.crc8Step c b)
    | _ => .error .wrongByteCount
  | .crc8 => .ok (.crc8 bytes)

/-- The decoder: total on any packet. `now` is the time input and `txOk` the transport's answer presented with the
operation (R40, R44); an operation that takes neither drops them. `par` gives the sequence codes (R83). -/
def decode (par : Params) (pkt : Packet) (now : Time) (txOk : Bool) : Except DecodeError Instr :=
  match pkt.port with
  | .cmd => decodeCmd pkt.bytes
  | .rx => decodeRx par pkt.bytes now
  | .txe => decodeTxe pkt.bytes now txOk
  | .fn f => decodeFn f pkt.bytes

/-- The command packet whose op code is `w` and whose operands are all zero. -/
def tableCmd (w : Nat) : List Byte :=
  BitVec.ofNat 8 w ::
    (if w = 1 then [0] else if w = 2 then [0, 0, 0] else if w = 3 then [0, 0, 0, 0, 0] else [])

/-- The packet of a word of spec/opcode_table.json, every operand that the table gives no bits being zero.
A row's format is told by its width: 2 bits are TXSTATE, 3 to 8 bits CMD, 9 bits and more RXID (assumption log 9). -/
def tablePacket (nbits w : Nat) : Packet :=
  if nbits ≤ 2 then { port := .txe, bytes := [BitVec.ofNat 8 w] }
  else if nbits ≤ 8 then { port := .cmd, bytes := tableCmd w }
  else { port := .rx, bytes := [BitVec.ofNat 8 w, BitVec.ofNat 8 (w / 256), 0] }

/-- The instruction the decoder reads from a word of the opcode table (`none` where it refuses). The table is written with the
default sequence codes. -/
def decodeTableWord (nbits w : Nat) : Option Instr :=
  if w < 2 ^ (if nbits ≤ 8 then 8 else 16) then (decode Params.default (tablePacket nbits w) 0 false).toOption else none

/-- An inbound frame as a TPORT_RX packet (R41, R80). -/
def encodeFrame (f : Frame) : List Byte := pairBytes f.id ++ [BitVec.ofNat 8 f.data.length] ++ f.data

/-- The identifier of an inbound data or acknowledgment frame as a packet. -/
def encodeRx (p : Prio) (a : Addr) (s : SeqTag) (t : TypeId) (data : List Byte) : Option Packet :=
  some { port := .rx, bytes := encodeFrame { id := Machine.packId p a s t, data := data } }

/-- The encoder: the packet that presents an operation to a block with parameters `par`. `none` for the six operations that no
port presents: FRAG is "not a hardware port" and the INTERNAL rows are called by other operations (spec/opcode_table.json). -/
def encode (par : Params) : Instr → Option Packet
  | .rxAck p a s data _ => encodeRx p a s Config.ackType data
  | .rxStart p a t data _ => encodeRx p a par.seqStart t data
  | .rxMiddle p a t data _ => encodeRx p a par.seqMiddle t data
  | .rxEnd p a t data _ => encodeRx p a par.seqEnd t data
  | .rxSingle p a t data _ => encodeRx p a par.seqSingle t data
  | .nop => some { port := .cmd, bytes := [0] }
  | .cfgRetry limit => some { port := .cmd, bytes := [1, limit] }
  | .reg t size => some { port := .cmd, bytes := [2, t.setWidth 8] ++ pairBytes size }
  | .send p a t m =>
    some { port := .cmd
           bytes := [3, p.setWidth 8, a.setWidth 8, t.setWidth 8] ++ pairBytes (BitVec.ofNat 16 m.length) ++ m }
  | .reset => some { port := .cmd, bytes := [4] }
  | .cmdReserved5 => some { port := .cmd, bytes := [5] }
  | .cmdReserved6 => some { port := .cmd, bytes := [6] }
  | .cmdReserved7 => some { port := .cmd, bytes := [7] }
  | .txIdle => some { port := .txe, bytes := [0] }
  | .txFrag _ _ => some { port := .txe, bytes := [1] }
  | .txWait _ => some { port := .txe, bytes := [2] }
  | .txStateReserved3 => some { port := .txe, bytes := [3] }
  | .enc p a s t => some { port := .fn .enc, bytes := [p, a, s, t] }
  | .dec id => some { port := .fn .dec, bytes := pairBytes id }
  | .rkey id => some { port := .fn .rkey, bytes := pairBytes id }
  | .kidx id => some { port := .fn .kidx, bytes := pairBytes id }
  | .crc8Step c b => some { port := .fn .crc8Step, bytes := [c, b] }
  | .crc8 bytes => some { port := .fn .crc8, bytes := bytes }
  | .frag _ _ _ _ => none
  | .cksumOk _ => none
  | .expired _ _ => none
  | .lookup _ _ => none
  | .dispatch _ _ => none
  | .ackEmit _ _ _ => none

/-- The time input an operation was presented with (0 where it takes none). -/
def Instr.timeInput : Instr → Time
  | .rxAck _ _ _ _ now => now
  | .rxStart _ _ _ _ now => now
  | .rxMiddle _ _ _ _ now => now
  | .rxEnd _ _ _ _ now => now
  | .rxSingle _ _ _ _ now => now
  | .txFrag now _ => now
  | .txWait now => now
  | .expired _ now => now
  | .lookup _ now => now
  | .nop | .cfgRetry _ | .reg _ _ | .send _ _ _ _ | .reset | .cmdReserved5 | .cmdReserved6 | .cmdReserved7
  | .txIdle | .txStateReserved3 | .enc _ _ _ _ | .dec _ | .rkey _ | .kidx _ | .crc8Step _ _ | .crc8 _
  | .frag _ _ _ _ | .cksumOk _ | .dispatch _ _ | .ackEmit _ _ _ => 0

/-- The transport's answer an operation was presented with (false where it takes none). -/
def Instr.answerInput : Instr → Bool
  | .txFrag _ txOk => txOk
  | .rxAck _ _ _ _ _ | .rxStart _ _ _ _ _ | .rxMiddle _ _ _ _ _ | .rxEnd _ _ _ _ _ | .rxSingle _ _ _ _ _
  | .nop | .cfgRetry _ | .reg _ _ | .send _ _ _ _ | .reset | .cmdReserved5 | .cmdReserved6 | .cmdReserved7
  | .txIdle | .txWait _ | .txStateReserved3 | .enc _ _ _ _ | .dec _ | .rkey _ | .kidx _ | .crc8Step _ _ | .crc8 _
  | .frag _ _ _ _ | .cksumOk _ | .expired _ _ | .lookup _ _ | .dispatch _ _ | .ackEmit _ _ _ => false

end Sys2Proof
end

