-- ==== Sys2Proof/Machine/State.lean ====
section
/-! DEFINITION. The state of one CFB: the five groups of spec/10_state.md R20 and nothing else of the architecture, beside them
the parameters of the instance (R8), the environment's inputs still to come (R46) and the record of the outputs. Plain data. -/

namespace Sys2Proof.Machine

/-- A byte memory: (address, byte) cells, addresses strictly rising. An address that is not listed holds no value: the
spec gives RAB and TXB none after reset (R215), and reading it is a fault (assumption log 10). -/
abbrev Memory := List Host.Cell

/-- Group CFG (R21). -/
structure Cfg where
  retryLimit : Retry
deriving DecidableEq, Repr

/-- One entry of the handler registry (R23). -/
structure RegEntry where
  valid : Bool
  size : Len
deriving DecidableEq, Repr

/-- The pending-acknowledgment slot (R24, R25). -/
structure AckSlot where
  expected : TypeId
  satisfied : Bool
deriving DecidableEq, Repr

/-- The transmit engine's registers (R26 to R29). -/
structure Tx where
  state : TxState
  prio : Prio
  addr : Addr
  typ : TypeId
  multi : Bool
  slen : Len
  nfrag : Len
  idx : Len
  retries : Retry
  waitStart : Time
deriving DecidableEq, Repr

/-- The registers of one reassembly entry; its bytes stand in RAB (R30, R31). -/
structure RaEntry where
  valid : Bool
  ts : Time
  /-- The number of accumulated bytes. A number: with RA_CAP = ∞ "the length is unbounded and must be a natural number", and
  otherwise it never exceeds RA_CAP < 2^LEN_W (R176; assumption log 5). -/
  len : Nat
deriving DecidableEq, Repr

/-- The status a SEND returns in DONE (R186). -/
inductive Status where
  | ok
  | failTransport
  | failNoack
  | rejected
deriving DecidableEq, Repr

/-- The output events (R40, R42). -/
inductive Event where
  /-- A frame handed to the transport (R40). -/
  | txf (frame : Frame)
  /-- A validated message for the handler of its type (R42). -/
  | deliver (typ : TypeId) (bytes : List Byte)
  /-- The error notification on exhausted retries (R42, R195). -/
  | err (typ : TypeId) (addr : Addr)
  /-- The result of a SEND (R42, R186). -/
  | done (status : Status)
deriving DecidableEq, Repr

/-- What LOOKUP answers (R125). -/
inductive LookupResult where
  | absent
  | expired
  | live
deriving DecidableEq, Repr

/-- The value of a function port, or of an internal function run on its own. -/
inductive FnResult where
  | ident (id : Ident)
  | fields (f : Fields)
  | routingKey (id : Ident)
  | keyIndex (k : Key)
  | checksum (c : Byte)
  | frames (fs : List Frame)
  | validated (ok : Bool) (body : List Byte)
  | expiry (expired : Bool)
  | lookup (r : LookupResult)
deriving DecidableEq, Repr

/-- Who takes the next operation (R9): the host on the command port, the receive path, the transmit engine; the function
ports (R45); the hardware reset input (R174). -/
inductive Agent where
  | host
  | rxp
  | txe
  | fn
  | resetInput
deriving DecidableEq, Repr

/-- One place in the total order of operations (R10): the agent that moves, the time input `now` (R44), and the transport's
answer to a frame the operation emits (R40). -/
structure Turn where
  agent : Agent
  now : Time
  txOk : Bool
deriving DecidableEq, Repr

/-- What the outside presents: the order in which the agents move, and for each port its transactions, first come first.
The MODEL's own fields: R46 calls them parameters of the step relation (assumption log 11). -/
structure Env where
  turns : List Turn
  commands : List (List Byte)
  frames : List (List Byte)
  calls : List (FnPort × List Byte)
deriving DecidableEq, Repr

/-- The whole state. -/
structure State where
  /-- The instance's parameters (R8); no operation writes them. -/
  par : Params
  /-- CFG (R21). -/
  cfg : Cfg
  /-- REG[t], t = 0..7 (R23). -/
  reg : Vector RegEntry 8
  /-- ACK (R24). -/
  ack : AckSlot
  /-- TX (R26 to R29). -/
  tx : Tx
  /-- TXB, addressed by byte offset (R60). -/
  txb : Memory
  /-- RA[k], k = 0..511 (R30). -/
  ra : Vector RaEntry 512
  /-- RAB[k], k = 0..511: one buffer for each key index, addressed by byte offset (R60; assumption log 10). -/
  rab : Vector Memory 512
  /-- The output events so far, in the order they were emitted (R76). The MODEL's own field. -/
  trace : List Event
  /-- The value last seen on a function port (R45). The MODEL's own field: no operation reads it. -/
  fnOut : Option FnResult
  /-- How many times a value was left open so far; each one gets its own (assumption log 7). The MODEL's own field. -/
  freeCount : Nat
  /-- What the outside presents. The MODEL's own field. -/
  env : Env
deriving DecidableEq, Repr

/-- Why the machine stops with a fault. No operation of the hardware faults or traps (R11): these two are the model's guard
on its own memories, and no state that a run reaches raises one. -/
inductive Fault where
  /-- Raised by RX_END and TX_FRAG when a byte they read was never written (R215 gives it no value). Safe: the model stops
  where the hardware would go on with a value the spec does not give. -/
  | unwrittenByte
  /-- Raised by RX_START, RX_MIDDLE, RX_END and SEND when a write would pass the end of a buffer (R60). Safe: the spec
  gives the buffer no such byte. -/
  | bufferOverrun
deriving DecidableEq, Repr

/-- Why an operation has no meaning. -/
inductive Refusal where
  /-- An instruction whose arm of exec has no meaning yet. Safe: nothing is claimed of it. -/
  | notModelled (mnemonic : String)
  /-- Raised by step when the packet at a port is no operation (R90). Safe: the spec says such an input cannot be presented. -/
  | undecodable (e : DecodeError)
  /-- Raised by TX_STATE_RESERVED_3: TX.state = 3 has no meaning and is unreachable (R90, R26). Safe. -/
  | txStateReserved
  /-- Raised by CKSUM_OK on the empty sequence, which R112 excludes. Safe. -/
  | emptyChecksumOperand
deriving DecidableEq, Repr

/-- No input waits: nothing is presented to the block. -/
def Env.empty : Env := { turns := [], commands := [], frames := [], calls := [] }

/-- The state after the `n`-th reset of an instance with parameters `p` (R215): the values the spec states, and for every
element it calls unspecified a value nobody can evaluate (assumption log 7). Nothing is written in RAB and TXB. -/
def State.afterReset (p : Params) (n : Nat) : State :=
  { par := p
    cfg := { retryLimit := p.retryLimitReset }
    reg := ⟨((List.range 8).map fun t => { valid := false, size := Config.unspecifiedRegSize n t }).toArray, by simp⟩
    ack := { expected := 0, satisfied := false }
    tx :=
      { state := .idle
        prio := Config.unspecifiedTxPrio n
        addr := Config.unspecifiedTxAddr n
        typ := Config.unspecifiedTxType n
        multi := Config.unspecifiedTxMulti n
        slen := Config.unspecifiedTxSlen n
        nfrag := Config.unspecifiedTxNfrag n
        idx := Config.unspecifiedTxIdx n
        retries := Config.unspecifiedTxRetries n
        waitStart := Config.unspecifiedTxWaitStart n }
    txb := []
    ra :=
      ⟨((List.range 512).map fun k =>
        { valid := false, ts := Config.unspecifiedRaTs n k, len := Config.unspecifiedRaLen n k }).toArray, by simp⟩
    rab := Vector.replicate 512 []
    trace := []
    fnOut := none
    freeCount := n
    env := Env.empty }

/-- The machine right after reset, with the default parameters and nothing presented yet (R215, R8). -/
def State.reset : State := State.afterReset Params.default 0

end Sys2Proof.Machine
end

