-- ==== Sys2Proof/Machine/Flags.lean ====
section
/-! DEFINITION. The one-bit conditions. The block has no condition codes (spec/10_state.md R35); these are the comparisons its
operations make, each with the edge of spec/45_arithmetic_control_access.md R178, and the accessors they read. -/

namespace Sys2Proof.Machine

/-- RA[k] (R30). -/
def State.raAt (s : State) (k : Key) : RaEntry := s.ra[k.toNat]'k.isLt

/-- RAB[k] (R60). -/
def State.rabAt (s : State) (k : Key) : Memory := s.rab[k.toNat]'k.isLt

/-- REG[t] (R23). -/
def State.regAt (s : State) (t : TypeId) : RegEntry := s.reg[t.toNat]'t.isLt

/-- ACK_PRIO(p) (R8, decision D10). -/
def State.ackPrio (s : State) (p : Prio) : Prio := s.par.ackPrio[p.toNat]'p.isLt

/-- The transmit engine is busy: TX.state ≠ IDLE (R35). -/
def txBusy (s : State) : Bool := decide (s.tx.state ≠ .idle)

/-- An entry created at `ts` is expired: more than 500 time units have elapsed (R126). -/
def isExpired (now ts : Time) : Bool := decide (Config.raTimeout < (elapsed now ts).toNat)

/-- The acknowledgment wait begun at `start` has timed out: at least 100 time units have elapsed (R152). -/
def ackTimedOut (now start : Time) : Bool := decide (Config.ackTimeout ≤ (elapsed now start).toNat)

/-- Retry-mode is on: CFG.retry_limit > 0 (R21, R150). -/
def retryMode (s : State) : Bool := decide (0 < s.cfg.retryLimit.toNat)

/-- Another retransmission is allowed: TX.retries < CFG.retry_limit (R153). -/
def retryAllowed (s : State) : Bool := decide (s.tx.retries.toNat < s.cfg.retryLimit.toNat)

/-- More fragments follow the one at TX.idx: TX.idx < TX.nfrag - 1 (R146, R148). -/
def moreFragments (tx : Tx) : Bool := decide (tx.idx.toNat < tx.nfrag.toNat - 1)

/-- `n` bytes are no more than RA_CAP; with RA_CAP = ∞ every number is (R8, R127). -/
def withinCap (s : State) (n : Nat) : Bool :=
  match s.par.raCap with
  | none => true
  | some c => decide (n ≤ c)

/-- Appending `n` bytes would make entry `k` longer than RA_CAP (R127). -/
def wouldOverflow (s : State) (k : Key) (n : Nat) : Bool := !withinCap s ((s.raAt k).len + n)

/-- A SEND is rejected: type 7, or longer than TX_CAP (R142). -/
def sendRejected (s : State) (t : TypeId) (m : List Byte) : Bool :=
  decide (t = Config.ackType) || decide (s.par.txCap < m.length)

/-- An acknowledgment frame matches the slot: it has a byte and the whole of its first byte equals ACK.expected (R160). -/
def ackMatches (s : State) (data : List Byte) : Bool :=
  match data with
  | [] => false
  | b :: _ => b == s.ack.expected.setWidth 8

/-- The filter passes a message: a handler is registered and the message is not shorter than its size (R172). -/
def dispatchPasses (s : State) (t : TypeId) (bytes : List Byte) : Bool :=
  (s.regAt t).valid && decide ((s.regAt t).size.toNat ≤ bytes.length)

end Sys2Proof.Machine
end

