-- ==== Sys2Proof/Machine/Ops.lean ====
section
/-! DEFINITION. The named operations over the memories and registers, shared by the meanings: MemRead and MemWrite
(spec/00_scope.md section 6), the table and registry accessors, the events, LOOKUP, DISPATCH and the acknowledgment, the
failures of a SEND (spec/60_exceptions.md), and reset. -/

namespace Sys2Proof.Machine

/-- The canonical form of a memory: addresses strictly rising. (An unlisted address holds no value, so no listed cell
repeats what it would read as.) -/
abbrev Memory.wf (m : Memory) : Prop := m.Pairwise fun c d => c.1 < d.1

/-- The byte at an address, `none` where none was written. -/
def Memory.read (a : Nat) : Memory → Option Byte
  | [] => none
  | c :: m => if c.1 = a then some c.2 else Memory.read a m

/-- Write one byte, keeping the addresses rising. -/
def Memory.write (a : Nat) (b : Byte) : Memory → Memory
  | [] => [(a, b)]
  | c :: m => if a < c.1 then (a, b) :: c :: m else if a = c.1 then (a, b) :: m else c :: Memory.write a b m

/-- MemRead(·, a, n): the `n` bytes from address `a`, in offset order; `none` if one was never written. -/
def Memory.readBytes (m : Memory) (a : Nat) : Nat → Option (List Byte)
  | 0 => some []
  | n + 1 =>
    match m.read a, Memory.readBytes m (a + 1) n with
    | some b, some bs => some (b :: bs)
    | _, _ => none

/-- MemWrite(·, a, n, v): the bytes of `v` from address `a`, in offset order. -/
def Memory.writeBytes (a : Nat) : List Byte → Memory → Memory
  | [], m => m
  | b :: bs, m => Memory.writeBytes (a + 1) bs (m.write a b)

/-- The outcome of an operation that may meet the model's memory guard. -/
def outcome : Except Fault State → Host.Outcome State Fault Refusal
  | .ok s => .next s
  | .error f => .fault f

/-- A byte count as a LEN_W register holds it (R176: no count that is stored exceeds the width). -/
def toLen (n : Nat) : Len := BitVec.ofNat 16 n

/-- RA[k] <- e. -/
def State.setRa (s : State) (k : Key) (e : RaEntry) : State := { s with ra := s.ra.set k.toNat e k.isLt }

/-- RA[k].valid <- 0: the entry is removed (R32). -/
def State.dropEntry (s : State) (k : Key) : State := s.setRa k { s.raAt k with valid := false }

/-- REG[t] <- e. -/
def State.setReg (s : State) (t : TypeId) (e : RegEntry) : State := { s with reg := s.reg.set t.toNat e t.isLt }

/-- CFG <- c. -/
def State.setCfg (s : State) (c : Cfg) : State := { s with cfg := c }

/-- ACK <- a. -/
def State.setAck (s : State) (a : AckSlot) : State := { s with ack := a }

/-- TX <- t. -/
def State.setTx (s : State) (t : Tx) : State := { s with tx := t }

/-- TXB <- m. -/
def State.setTxb (s : State) (m : Memory) : State := { s with txb := m }

/-- RAB[k] <- m. -/
def State.setRab (s : State) (k : Key) (m : Memory) : State := { s with rab := s.rab.set k.toNat m k.isLt }

/-- The value shown on a function port. -/
def State.setFnOut (s : State) (r : FnResult) : State := { s with fnOut := some r }

/-- One more value was left open. -/
def State.nextFree (s : State) : State := { s with freeCount := s.freeCount + 1 }

/-- The inputs still to come. -/
def State.setEnv (s : State) (e : Env) : State := { s with env := e }

/-- emit E: the event is appended to the output trace (R76). -/
def State.emit (s : State) (e : Event) : State := { s with trace := s.trace ++ [e] }

/-- MemRead(RAB[k], off, n). -/
def rabRead (s : State) (k : Key) (off n : Nat) : Option (List Byte) := (s.rabAt k).readBytes off n

/-- MemWrite(RAB[k], off, |bs|, bs); a byte past RA_CAP does not exist (R60). -/
def rabWrite (s : State) (k : Key) (off : Nat) (bs : List Byte) : Except Fault State :=
  if withinCap s (off + bs.length) then .ok (s.setRab k ((s.rabAt k).writeBytes off bs)) else .error .bufferOverrun

/-- MemRead(TXB, off, n). -/
def txbRead (s : State) (off n : Nat) : Option (List Byte) := s.txb.readBytes off n

/-- MemWrite(TXB, 0, |bs|, bs); TXB has TX_CAP + 1 bytes (R60). -/
def txbWrite (s : State) (bs : List Byte) : Except Fault State :=
  if bs.length ≤ s.par.txCap + 1 then .ok (s.setTxb (s.txb.writeBytes 0 bs)) else .error .bufferOverrun

/-- LOOKUP(k, now): what it answers and the state it leaves (R125). -/
def lookup (s : State) (k : Key) (now : Time) : LookupResult × State :=
  if (s.raAt k).valid = false then (.absent, s)
  else if isExpired now (s.raAt k).ts then (.expired, s.dropEntry k)
  else (.live, s)

/-- DISPATCH(t, bytes): deliver, or drop silently (R172). -/
def dispatch (s : State) (t : TypeId) (bytes : List Byte) : State :=
  if dispatchPasses s t bytes then s.emit (.deliver t bytes) else s

/-- ACK_EMIT(p, a, t): hand the acknowledgment frame to the transport; its answer is ignored (R161). -/
def emitAck (s : State) (p : Prio) (a : Addr) (t : TypeId) : State := s.emit (.txf (ackFrame s.par (s.ackPrio p) a t))

/-- The send in progress ends: TX.state <- IDLE, every other register keeps its value (R199). -/
def State.endSend (s : State) : State := s.setTx { s.tx with state := .idle }

/-- The three exceptional completions of a SEND (spec/00_scope.md section 6, R187). -/
inductive SendFailure where
  | failTransport
  | failNoack
  | rejected
deriving DecidableEq, Repr

/-- raise X: the events the rule lists and the end of the SEND. FAIL_TRANSPORT returns its status only (R147, R188); FAIL_NOACK
notifies ERR with the message's type and address and then returns its status (R154, R199); REJECTED ends nothing, since
nothing began (R142). No mode changes, nothing is saved, and there is no return (R199, R200). -/
def raise (x : SendFailure) (s : State) : State :=
  match x with
  | .failTransport => s.endSend.emit (.done .failTransport)
  | .failNoack => (s.endSend.emit (.err s.tx.typ s.tx.addr)).emit (.done .failNoack)
  | .rejected => s.emit (.done .rejected)

/-- The send completes: TX.state <- IDLE and DONE(OK) (R149, R151). -/
def completeSend (s : State) : State := s.endSend.emit (.done .ok)

/-- Reset: every element at its reset value (R215), whatever was in progress (R216). What the outside has seen and what it
has still to present are no state of the block and stay. -/
def resetState (s : State) : State :=
  { State.afterReset s.par (s.freeCount + 1) with trace := s.trace, fnOut := s.fnOut, env := s.env }

end Sys2Proof.Machine
end

