-- ==== Sys2Proof/Machine/Function.lean ====
section
/-! DEFINITION. The function ports ENC, DEC, RKEY, KIDX (spec/40_codec.md), CRC8_STEP, CRC8 (spec/41_checksum.md), and the
functions that the other operations call, run on their own: FRAG, CKSUM_OK, EXPIRED, LOOKUP, DISPATCH, ACK_EMIT. A function
port changes no state of the block (R45); its value is shown in `fnOut`. -/

namespace Sys2Proof.Machine

/-- ENC on 8-bit operands (R100). -/
def execEnc (p a sq t : Byte) (s : State) : Host.Outcome State Fault Refusal := .next (s.setFnOut (.ident (enc p a sq t)))

/-- DEC (R101). -/
def execDec (id : Ident) (s : State) : Host.Outcome State Fault Refusal := .next (s.setFnOut (.fields (dec id)))

/-- RKEY (R102). -/
def execRkey (id : Ident) (s : State) : Host.Outcome State Fault Refusal := .next (s.setFnOut (.routingKey (rkey id)))

/-- KIDX (R103). -/
def execKidx (id : Ident) (s : State) : Host.Outcome State Fault Refusal := .next (s.setFnOut (.keyIndex (kidx id)))

/-- CRC8_STEP (R110). -/
def execCrc8Step (c b : Byte) (s : State) : Host.Outcome State Fault Refusal := .next (s.setFnOut (.checksum (crc8Step c b)))

/-- CRC8 (R111). -/
def execCrc8 (bytes : List Byte) (s : State) : Host.Outcome State Fault Refusal := .next (s.setFnOut (.checksum (crc8 bytes)))

/-- FRAG (R143). -/
def execFrag (p : Prio) (a : Addr) (t : TypeId) (m : List Byte) (s : State) : Host.Outcome State Fault Refusal :=
  .next (s.setFnOut (.frames (frag s.par p a t m)))

/-- CKSUM_OK (R112); the empty sequence is "excluded by the caller" and is no operand of it. -/
def execCksumOk (acc : List Byte) (s : State) : Host.Outcome State Fault Refusal :=
  match cksumOk acc with
  | some (good, body) => .next (s.setFnOut (.validated good body))
  | none => .refused .emptyChecksumOperand

/-- EXPIRED (R126), "evaluated only when RA[k].valid = 1"; for an entry that is not valid the answer is left open
(assumption log 15). -/
def execExpired (k : Key) (now : Time) (s : State) : Host.Outcome State Fault Refusal :=
  if (s.raAt k).valid then .next (s.setFnOut (.expiry (isExpired now (s.raAt k).ts)))
  else .next ((s.setFnOut (.expiry (Config.unstatedExpired s.freeCount k now))).nextFree)

/-- LOOKUP (R125). -/
def execLookup (k : Key) (now : Time) (s : State) : Host.Outcome State Fault Refusal :=
  .next ((lookup s k now).2.setFnOut (.lookup (lookup s k now).1))

/-- DISPATCH (R172). -/
def execDispatch (t : TypeId) (bytes : List Byte) (s : State) : Host.Outcome State Fault Refusal := .next (dispatch s t bytes)

/-- ACK_EMIT (R161). -/
def execAckEmit (p : Prio) (a : Addr) (t : TypeId) (s : State) : Host.Outcome State Fault Refusal := .next (emitAck s p a t)

end Sys2Proof.Machine
end

