-- ==== Sys2Proof/Machine/Receive.lean ====
section
/-! DEFINITION. The receive path: RX_ACK (spec/43_ack_retry.md R160), RX_START, RX_MIDDLE, RX_END, RX_SINGLE
(spec/42_reassembly.md R120 to R133). -/

namespace Sys2Proof.Machine

/-- RX_ACK: a matching byte sets ACK.satisfied, whatever TX.state is; nothing else changes (R160). The identifier's other
fields and `now` are not examined. -/
def execRxAck (_p : Prio) (_a : Addr) (_s : SeqTag) (data : List Byte) (_now : Time) (s : State) :
    Host.Outcome State Fault Refusal :=
  .next (if ackMatches s data then s.setAck { s.ack with satisfied := true } else s)

/-- RX_START: the entry is (re)created, whatever it was (R122, R133). -/
def execRxStart (p : Prio) (a : Addr) (t : TypeId) (data : List Byte) (now : Time) (s : State) :
    Host.Outcome State Fault Refusal :=
  let k := kidx (packId p a s.par.seqStart t)
  outcome (rabWrite (s.setRa k { valid := true, ts := now, len := data.length }) k 0 data)

/-- RX_MIDDLE: append to a live entry, or drop it (R123, R127). RA[k].ts is not refreshed (R128). -/
def execRxMiddle (p : Prio) (a : Addr) (t : TypeId) (data : List Byte) (now : Time) (s : State) :
    Host.Outcome State Fault Refusal :=
  let k := kidx (packId p a s.par.seqMiddle t)
  match lookup s k now with
  | (.live, s1) =>
    if wouldOverflow s1 k data.length then .next (s1.dropEntry k)
    else
      let e := s1.raAt k
      outcome (rabWrite (s1.setRa k { e with len := e.len + data.length }) k e.len data)
  | (_, s1) => .next s1

/-- What RX_END does with the accumulated bytes: a good checksum dispatches the body and then acknowledges (R124, R161);
a bad one drops the message silently (R190). -/
def finishMessage (s : State) (p : Prio) (a : Addr) (t : TypeId) (acc : List Byte) : State :=
  match cksumOk acc with
  | some (true, body) => emitAck (dispatch s t body) p a t
  | _ => s

/-- RX_END: append to a live entry, remove the entry in every case, validate and deliver (R124, R127). -/
def execRxEnd (p : Prio) (a : Addr) (t : TypeId) (data : List Byte) (now : Time) (s : State) :
    Host.Outcome State Fault Refusal :=
  let k := kidx (packId p a s.par.seqEnd t)
  match lookup s k now with
  | (.live, s1) =>
    if wouldOverflow s1 k data.length then .next (s1.dropEntry k)
    else
      let n := (s1.raAt k).len + data.length
      match rabWrite (s1.dropEntry k) k (s1.raAt k).len data with
      | .error f => .fault f
      | .ok s2 =>
        if n < 1 then .next s2
        else
          match rabRead s2 k 0 n with
          | none => .fault .unwrittenByte
          | some acc => .next (finishMessage s2 p a t acc)
  | (_, s1) => .next s1

/-- RX_SINGLE: the payload is dispatched at once, past the table, without checksum or acknowledgment (R121). -/
def execRxSingle (_p : Prio) (_a : Addr) (t : TypeId) (data : List Byte) (_now : Time) (s : State) :
    Host.Outcome State Fault Refusal :=
  .next (dispatch s t data)

end Sys2Proof.Machine
end

