-- ==== Sys2Proof/Machine/Command.lean ====
section
/-! DEFINITION. The host's commands: NOP, CFG_RETRY, REG, RESET (spec/44_dispatch_config.md R170, R171, R173, R174), SEND
(spec/43_ack_retry.md R140 to R142), and the reserved op codes (spec/30_encoding.md R90). -/

namespace Sys2Proof.Machine

/-- An operation that is not enabled does not happen (R11). -/
def held (s : State) : Host.Outcome State Fault Refusal := .next s

/-- NOP: no state change, no event (R173). -/
def execNop (s : State) : Host.Outcome State Fault Refusal := .next s

/-- CFG_RETRY(limit): held while the engine is busy, otherwise CFG.retry_limit <- limit (R170). -/
def execCfgRetry (limit : Retry) (s : State) : Host.Outcome State Fault Refusal :=
  if txBusy s then held s else .next (s.setCfg { s.cfg with retryLimit := limit })

/-- REG(type, size): the last registration of a type wins; never held (R171). -/
def execReg (t : TypeId) (size : Len) (s : State) : Host.Outcome State Fault Refusal :=
  .next (s.setReg t { valid := true, size := size })

/-- The slot is armed for a multi-frame message in retry-mode, and untouched otherwise (R141, R25). -/
def armSlot (s : State) (t : TypeId) (multi : Bool) : State :=
  if multi && retryMode s then s.setAck { expected := t, satisfied := false } else s

/-- The transmit registers that start a message (R141); TX.wait_start is not written. -/
def startTx (tx : Tx) (p : Prio) (a : Addr) (t : TypeId) (m : List Byte) : Tx :=
  { tx with
    state := .sending, prio := p, addr := a, typ := t, multi := isMulti m, slen := toLen (stream m).length
    nfrag := toLen (frameCount m), idx := 0, retries := 0 }

/-- SEND: held while the engine is busy (R140), rejected for type 7 or too long a message (R142), otherwise it loads the
engine and arms the slot; no frame is emitted yet (R141). -/
def execSend (p : Prio) (a : Addr) (t : TypeId) (m : List Byte) (s : State) : Host.Outcome State Fault Refusal :=
  if txBusy s then held s
  else if sendRejected s t m then .next (raise .rejected s)
  else outcome (txbWrite (armSlot (s.setTx (startTx s.tx p a t m)) t (isMulti m)) (stream m))

/-- RESET: always, also during a send or a reassembly (R174, R216). -/
def execReset (s : State) : Host.Outcome State Fault Refusal := .next (resetState s)

/-- Op 5: "a model refuses them; hardware treats them as NOP" (R90). The effect the hardware has is taken
(assumption log 12). -/
def execCmdReserved5 (s : State) : Host.Outcome State Fault Refusal := execNop s

/-- Op 6: as op 5 (R90; assumption log 12). -/
def execCmdReserved6 (s : State) : Host.Outcome State Fault Refusal := execNop s

/-- Op 7: as op 5 (R90; assumption log 12). -/
def execCmdReserved7 (s : State) : Host.Outcome State Fault Refusal := execNop s

end Sys2Proof.Machine
end

