-- ==== Sys2Proof/Machine/Transmit.lean ====
section
/-! DEFINITION. The transmit engine's steps TX_IDLE, TX_FRAG, TX_WAIT (spec/43_ack_retry.md R145 to R155) and the code of
TX.state without a meaning (spec/30_encoding.md R90). TX.state selects the step (R88); a step that it does not select is
not enabled and does not happen (R11; assumption log 13). -/

namespace Sys2Proof.Machine

/-- TX_IDLE does nothing (R145). -/
def execTxIdle (s : State) : Host.Outcome State Fault Refusal := .next s

/-- The frame TX_FRAG emits: fragment TX.idx of the stream (R144, R146). `none` if a byte of it was never written. -/
def currentFrame (s : State) : Option Frame :=
  match txbRead s (8 * s.tx.idx.toNat) (fragLen s.tx.slen.toNat s.tx.idx.toNat) with
  | none => none
  | some data =>
    some { id := packId s.tx.prio s.tx.addr (seqTag s.par s.tx.multi s.tx.nfrag.toNat s.tx.idx.toNat) s.tx.typ, data := data }

/-- What follows the transport's answer to a fragment: failure ends the send (R147), then the next fragment (R148), then the
end of the attempt (R149). -/
def afterFragment (s : State) (now : Time) (txOk : Bool) : State :=
  if txOk = false then raise .failTransport s
  else if moreFragments s.tx then s.setTx { s.tx with idx := s.tx.idx + 1 }
  else if !s.tx.multi || !(retryMode s) then completeSend s
  else s.setTx { s.tx with waitStart := now, state := .waitAck }

/-- TX_FRAG: transmit one fragment (R146). -/
def execTxFrag (now : Time) (txOk : Bool) (s : State) : Host.Outcome State Fault Refusal :=
  if s.tx.state = .sending then
    match currentFrame s with
    | none => .fault .unwrittenByte
    | some f => .next (afterFragment (s.emit (.txf f)) now txOk)
  else held s

/-- One poll of the acknowledgment wait: satisfied first, then the timeout, then the retry count (R151 to R155, R198). -/
def pollAck (s : State) (now : Time) : State :=
  if s.ack.satisfied then completeSend s
  else if ackTimedOut now s.tx.waitStart then
    if retryAllowed s then s.setTx { s.tx with retries := s.tx.retries + 1, idx := 0, state := .sending }
    else raise .failNoack s
  else s

/-- TX_WAIT: one poll of the acknowledgment wait (R151). -/
def execTxWait (now : Time) (s : State) : Host.Outcome State Fault Refusal :=
  if s.tx.state = .waitAck then .next (pollAck s now) else held s

/-- TX.state = 3: unreachable, "no meaning" (R90, R26). -/
def execTxStateReserved3 (_s : State) : Host.Outcome State Fault Refusal := .refused .txStateReserved

end Sys2Proof.Machine
end

