-- ==== Sys2Proof/Machine/Dispatch.lean ====
section
/-! DEFINITION. The dispatch: one arm for each operation of the opcode table. -/

namespace Sys2Proof.Machine

def exec (i : Instr) (s : State) : Host.Outcome State Fault Refusal :=
  match i with
  | .rxAck p a sq data now => Sys2Proof.Machine.execRxAck p a sq data now s
  | .rxStart p a t data now => Sys2Proof.Machine.execRxStart p a t data now s
  | .rxMiddle p a t data now => Sys2Proof.Machine.execRxMiddle p a t data now s
  | .rxEnd p a t data now => Sys2Proof.Machine.execRxEnd p a t data now s
  | .rxSingle p a t data now => Sys2Proof.Machine.execRxSingle p a t data now s
  | .nop => Sys2Proof.Machine.execNop s
  | .cfgRetry limit => Sys2Proof.Machine.execCfgRetry limit s
  | .reg t size => Sys2Proof.Machine.execReg t size s
  | .send p a t m => Sys2Proof.Machine.execSend p a t m s
  | .reset => Sys2Proof.Machine.execReset s
  | .cmdReserved5 => Sys2Proof.Machine.execCmdReserved5 s
  | .cmdReserved6 => Sys2Proof.Machine.execCmdReserved6 s
  | .cmdReserved7 => Sys2Proof.Machine.execCmdReserved7 s
  | .txIdle => Sys2Proof.Machine.execTxIdle s
  | .txFrag now txOk => Sys2Proof.Machine.execTxFrag now txOk s
  | .txWait now => Sys2Proof.Machine.execTxWait now s
  | .txStateReserved3 => Sys2Proof.Machine.execTxStateReserved3 s
  | .enc p a sq t => Sys2Proof.Machine.execEnc p a sq t s
  | .dec id => Sys2Proof.Machine.execDec id s
  | .rkey id => Sys2Proof.Machine.execRkey id s
  | .kidx id => Sys2Proof.Machine.execKidx id s
  | .crc8Step c b => Sys2Proof.Machine.execCrc8Step c b s
  | .crc8 bytes => Sys2Proof.Machine.execCrc8 bytes s
  | .frag p a t m => Sys2Proof.Machine.execFrag p a t m s
  | .cksumOk acc => Sys2Proof.Machine.execCksumOk acc s
  | .expired k now => Sys2Proof.Machine.execExpired k now s
  | .lookup k now => Sys2Proof.Machine.execLookup k now s
  | .dispatch t bytes => Sys2Proof.Machine.execDispatch t bytes s
  | .ackEmit p a t => Sys2Proof.Machine.execAckEmit p a t s

end Sys2Proof.Machine
end

