-- ==== Sys2Proof/Machine/Fetch.lean ====
section
/-! DEFINITION. Which operation comes next. The block has no program counter and fetches nothing (spec/10_state.md R34): the
next operation is the one the next agent in the total order takes (R9, R10, R70), read from its port (R40 to R45) or, for
the transmit engine, selected by TX.state (R88). -/

namespace Sys2Proof.Machine

/-- What the next place in the total order holds. -/
inductive Fetched where
  /-- Nothing is presented: no place is left in the order, or the agent's port has no transaction. -/
  | idle (s : State)
  /-- An operation, and the state once its inputs are taken. -/
  | op (i : Instr) (s : State)
  /-- A packet that is no operation. -/
  | bad (e : DecodeError)
deriving DecidableEq, Repr

/-- A command the host must wait with: SEND and CFG_RETRY while the engine is busy (R140, R170). -/
def isHeld (s : State) (i : Instr) : Bool :=
  match i with
  | .send _ _ _ _ => txBusy s
  | .cfgRetry _ => txBusy s
  | .rxAck _ _ _ _ _ | .rxStart _ _ _ _ _ | .rxMiddle _ _ _ _ _ | .rxEnd _ _ _ _ _ | .rxSingle _ _ _ _ _
  | .nop | .reg _ _ | .reset | .cmdReserved5 | .cmdReserved6 | .cmdReserved7
  | .txIdle | .txFrag _ _ | .txWait _ | .txStateReserved3 | .enc _ _ _ _ | .dec _ | .rkey _ | .kidx _
  | .crc8Step _ _ | .crc8 _ | .frag _ _ _ _ | .cksumOk _ | .expired _ _ | .lookup _ _ | .dispatch _ _
  | .ackEmit _ _ _ => false

/-- The operation of a packet, with the state `s` that is left when it is taken. -/
def fetched (pkt : Packet) (t : Turn) (s : State) : Fetched :=
  match decode s.par pkt t.now t.txOk with
  | .ok i => .op i s
  | .error e => .bad e

/-- A command: it leaves its port when it happens, and stays there while it is held (R140, R216). -/
def fetchCommand (bytes : List Byte) (rest : List (List Byte)) (t : Turn) (s : State) : Fetched :=
  match decode s.par { port := .cmd, bytes := bytes } t.now t.txOk with
  | .ok i => .op i (if isHeld s i then s else s.setEnv { s.env with commands := rest })
  | .error e => .bad e

/-- The next operation and the state once its turn and its transaction are taken. -/
def fetch (s : State) : Fetched :=
  match s.env.turns with
  | [] => .idle s
  | t :: turns =>
    let s1 := s.setEnv { s.env with turns := turns }
    match t.agent with
    | .host =>
      match s.env.commands with
      | [] => .idle s1
      | bytes :: rest => fetchCommand bytes rest t s1
    | .rxp =>
      match s.env.frames with
      | [] => .idle s1
      | bytes :: rest => fetched { port := .rx, bytes := bytes } t (s1.setEnv { s1.env with frames := rest })
    | .txe => fetched { port := .txe, bytes := [s.tx.state.code.setWidth 8] } t s1
    | .fn =>
      match s.env.calls with
      | [] => .idle s1
      | (f, bytes) :: rest => fetched { port := .fn f, bytes := bytes } t (s1.setEnv { s1.env with calls := rest })
    | .resetInput => .op .reset s1

/-- The transmit registers of a send about to take the step that `st` selects: those in place when it selects it already,
else those of a message without bytes. -/
def selectTx (tx : Tx) (st : TxState) : Tx :=
  if tx.state = st then tx
  else { tx with state := st, multi := false, slen := 0, nfrag := 1, idx := 0, retries := 0, waitStart := 0 }

/-- Present a word of the opcode table as the very next operation (assumption log 9). -/
def presentTableWord (s : State) (nbits w : Nat) : State :=
  let pkt := tablePacket nbits w
  let turn (a : Agent) : List Turn := { agent := a, now := 0, txOk := false } :: s.env.turns
  match pkt.port with
  | .cmd => s.setEnv { s.env with turns := turn .host, commands := pkt.bytes :: s.env.commands }
  | .rx => s.setEnv { s.env with turns := turn .rxp, frames := pkt.bytes :: s.env.frames }
  | .txe =>
    (s.setEnv { s.env with turns := turn .txe }).setTx (selectTx s.tx (TxState.ofCode (BitVec.ofNat 2 w)))
  | .fn f => s.setEnv { s.env with turns := turn .fn, calls := (f, pkt.bytes) :: s.env.calls }

end Sys2Proof.Machine
end

