-- ==== Sys2Proof/Machine/Step.lean ====
section
/-! DEFINITION. One step of the machine: the next operation of the total order, executed as one atomic step (spec/00_scope.md
R10). Where nothing is presented the block waits and nothing changes. -/

namespace Sys2Proof.Machine

/-- One step. -/
def step (s : State) : Host.Outcome State Fault Refusal :=
  match fetch s with
  | .idle s1 => .next s1
  | .op i s1 => exec i s1
  | .bad e => .refused (.undecodable e)

/-- The state in which the very next step runs the operation of a word of the opcode table. -/
def State.withFetchWord (s : State) (nbits w : Nat) : State := presentTableWord s nbits w

end Sys2Proof.Machine
end

