-- ==== Sys2Proof/Safety.lean ====
section
/-! DEFINITION. What counts as a safe state and a safe run, and the sequences of operations that statements speak of. -/

namespace Sys2Proof.Machine

/-- The type field of a key index: its bits 2:0 (R84). -/
def Key.typ (k : Key) : TypeId := k.extractLsb' 0 3

/-- The memories are in canonical form and list no address outside the arrays of R60. -/
structure MemInv (s : State) : Prop where
  rab_wf : ∀ k, (s.rabAt k).wf
  txb_wf : s.txb.wf
  rab_range : ∀ k, ∀ x ∈ s.rabAt k, ∀ c ∈ s.par.raCap, x.1 < c
  txb_range : ∀ c ∈ s.txb, c.1 < s.par.txCap + 1

/-- The reassembly table: a valid entry is within RA_CAP (R33), all its accumulated bytes were written (R31), and its key is
none of the 64 whose type field is 7 (R30). -/
structure RaInv (s : State) : Prop where
  len_le : ∀ k, (s.raAt k).valid = true → ∀ c ∈ s.par.raCap, (s.raAt k).len ≤ c
  written : ∀ k, (s.raAt k).valid = true → (rabRead s k 0 (s.raAt k).len).isSome = true
  typ_ne : ∀ k, (s.raAt k).valid = true → Key.typ k ≠ Config.ackType

/-- A send in progress: its type is not 7 (R141), its stream was written and has the shape of R28, TX.idx names one of its
fragments and TX.retries is within the limit (R29), a wait is that of a multi-frame message in retry-mode (R149), and the
slot expects its type (R141, R25). -/
structure SendInv (s : State) : Prop where
  typ_ne : s.tx.typ ≠ Config.ackType
  single : s.tx.multi = false → s.tx.nfrag.toNat = 1 ∧ s.tx.slen.toNat ≤ Config.maxDlc
  multi : s.tx.multi = true → 10 ≤ s.tx.slen.toNat ∧ s.tx.nfrag.toNat = (s.tx.slen.toNat + 7) / 8
  slen_le : s.tx.slen.toNat ≤ s.par.txCap + 1
  written : (txbRead s 0 s.tx.slen.toNat).isSome = true
  idx_lt : s.tx.idx.toNat < s.tx.nfrag.toNat
  retries_le : s.tx.retries.toNat ≤ s.cfg.retryLimit.toNat
  wait : s.tx.state = .waitAck → s.tx.multi = true ∧ 0 < s.cfg.retryLimit.toNat
  armed : s.tx.multi = true → 0 < s.cfg.retryLimit.toNat → s.ack.expected = s.tx.typ

/-- The invariant of the block. -/
structure BlockInv (s : State) : Prop where
  par : s.par.Ok
  mem : MemInv s
  ra : RaInv s
  state : s.tx.state ≠ .reserved3
  send : s.tx.state ≠ .idle → SendInv s

/-- A state from which the next step stops with no fault. -/
def StepSafe (s : State) : Prop := ∀ f, step s ≠ .fault f

/-- The operations of a list, one after the other, stopping at the first fault or refusal. -/
def execAll : List Instr → State → Host.Outcome State Fault Refusal
  | [], s => .next s
  | i :: is, s =>
    match exec i s with
    | .next t => execAll is t
    | .fault f => .fault f
    | .refused r => .refused r

/-- The receive operations of a list of frames, each with the time it is presented at: the pseudo-operation RXMSG (R93). -/
def receiveAll (par : Params) (frames : List (Frame × Time)) : List Instr := frames.map fun x => classify par x.1.id x.1.data x.2

/-- Everything but the reassembly table and its bytes is the same, the events emitted apart. -/
def SameOutsideTable (s u : State) : Prop :=
  u.par = s.par ∧ u.cfg = s.cfg ∧ u.reg = s.reg ∧ u.ack = s.ack ∧ u.tx = s.tx ∧ u.txb = s.txb ∧ u.fnOut = s.fnOut ∧
    u.freeCount = s.freeCount ∧ u.env = s.env

/-- Steps of the transmit engine at the given times, each the one TX.state selects (R88), the transport always answering
success. -/
def txeRun : List Time → State → Host.Outcome State Fault Refusal
  | [], s => .next s
  | now :: times, s =>
    match exec (txStep s.tx.state now true) s with
    | .next t => txeRun times t
    | .fault f => .fault f
    | .refused r => .refused r

end Sys2Proof.Machine
end

