-- ==== Sys2Proof/Certificates/Slice0/Obligations.lean ====
section
/-! DEFINITION. The statements for the provers: what the numbered rules of spec/ say the block's operations do, what they
leave unchanged, and what holds of the whole machine. -/

open Sys2Proof Sys2Proof.Machine

/-! ## Identifier codec -/

/-- R100: ENC completes on any 8-bit operands and packs the truncated fields as priority·2^9 + address·2^5 + sequence·2^3 + type
(the fields do not overlap, so the sum is the OR of the rule); the function itself does so for operands of any width. Nothing
else of the state changes (R45). -/
def Obligations.EncPacksTruncatedFields : Prop :=
  (∀ (p a sq t : Byte) (s : State), exec (.enc p a sq t) s = .next { s with fnOut := some (.ident (enc p a sq t)) }) ∧
  (∀ (w : Nat) (p a sq t : BitVec w),
    (enc p a sq t).toNat = p.toNat % 4 * 512 + a.toNat % 16 * 32 + sq.toNat % 4 * 8 + t.toNat % 8)

/-- R101: DEC completes on every identifier and answers its four slices; nothing else of the state changes (R45). -/
def Obligations.DecSplitsIdentifier : Prop :=
  ∀ (id : Ident) (s : State), ∃ f : Fields,
    exec (.dec id) s = .next { s with fnOut := some (.fields f) } ∧
    f.prio.toNat = id.toNat / 512 ∧ f.addr.toNat = id.toNat / 32 % 16 ∧ f.seq.toNat = id.toNat / 8 % 4 ∧
    f.typ.toNat = id.toNat % 8

/-- R104: DEC after ENC gives the truncated fields, and ENC after DEC gives the identifier back. -/
def Obligations.CodecRoundTrip : Prop :=
  (∀ (w : Nat) (p a sq t : BitVec w),
    dec (enc p a sq t) = { prio := p.setWidth 2, addr := a.setWidth 4, seq := sq.setWidth 2, typ := t.setWidth 3 }) ∧
  (∀ id : Ident, enc ((dec id).prio.setWidth 8) ((dec id).addr.setWidth 8) ((dec id).seq.setWidth 8)
    ((dec id).typ.setWidth 8) = id)

/-- R102: RKEY completes and answers the identifier with bits 4:3 cleared. It is idempotent, keeps an identifier whose
sequence field is 0, and two identifiers have one key exactly when their priority, address and type agree. -/
def Obligations.RoutingKeyMasksSequence : Prop :=
  (∀ (id : Ident) (s : State), exec (.rkey id) s = .next { s with fnOut := some (.routingKey (id &&& 0x7E7#11)) }) ∧
  (∀ id : Ident, rkey (rkey id) = rkey id ∧ ((dec id).seq = 0 → rkey id = id)) ∧
  (∀ id jd : Ident, rkey id = rkey jd ↔
    (dec id).prio = (dec jd).prio ∧ (dec id).addr = (dec jd).addr ∧ (dec id).typ = (dec jd).typ)

/-- R103: KIDX completes and answers id[10:5] over id[2:0]; it sees only the routing key, tells routing keys apart, and takes
every value 0..511. -/
def Obligations.KeyIndexCompactsRoutingKey : Prop :=
  (∀ (id : Ident) (s : State), ∃ k : Key, exec (.kidx id) s = .next { s with fnOut := some (.keyIndex k) } ∧
    k.toNat = id.toNat / 32 * 8 + id.toNat % 8) ∧
  (∀ id : Ident, kidx id = kidx (rkey id)) ∧
  (∀ id jd : Ident, kidx id = kidx jd ↔ rkey id = rkey jd) ∧ (∀ k : Key, ∃ id : Ident, kidx id = k)

/-! ## Checksum unit -/

/-- R110: CRC8_STEP completes and answers the rule's loop: v = c XOR b, then eight times a left shift, XORed with 0x31 when
bit 7 was set. -/
def Obligations.CrcStepIsTheShiftLoop : Prop :=
  ∀ (c b : Byte) (s : State),
    exec (.crc8Step c b) s =
      .next { s with fnOut := some (.checksum
        ((fun v : Byte => if v.getLsbD 7 then (v <<< 1) ^^^ 0x31#8 else v <<< 1)^[8] (c ^^^ b))) }

/-- R111: CRC8 completes on every byte sequence; it starts at 0 and takes the bytes in order, leading zero bytes do not
change it, and a sequence followed by its own checksum has checksum 0. -/
def Obligations.CrcOfSequence : Prop :=
  (∀ (bs : List Byte) (s : State), exec (.crc8 bs) s = .next { s with fnOut := some (.checksum (crc8 bs)) }) ∧
  crc8 [] = 0 ∧ (∀ (bs : List Byte) (b : Byte), crc8 (bs ++ [b]) = crc8Step (crc8 bs) b) ∧
  (∀ (n : Nat) (bs : List Byte), crc8 (List.replicate n 0 ++ bs) = crc8 bs) ∧
  (∀ bs : List Byte, crc8 (bs ++ [crc8 bs]) = 0) ∧ crc8 [0x01, 0x02] = 0x96 ∧ crc8 [0x02, 0x01] = 0xE8

/-- R113's derived facts: CRC8_STEP is linear over XOR and one-to-one in each operand, so changing exactly one byte of a sequence
always changes its checksum. -/
def Obligations.CrcDetectsOneChangedByte : Prop :=
  (∀ c d b e : Byte, crc8Step (c ^^^ d) (b ^^^ e) = crc8Step c b ^^^ crc8Step d e) ∧
  (∀ c b e : Byte, crc8Step c b = crc8Step c e → b = e) ∧ (∀ c d b : Byte, crc8Step c b = crc8Step d b → c = d) ∧
  (∀ (pre post : List Byte) (b c : Byte), b ≠ c → crc8 (pre ++ [b] ++ post) ≠ crc8 (pre ++ [c] ++ post))

/-- R112: on one byte or more CKSUM_OK completes, compares the last byte with the checksum of the bytes before it, and
answers those; it succeeds exactly when the checksum of all the bytes is 0. -/
def Obligations.ChecksumValidator : Prop :=
  (∀ (body : List Byte) (c : Byte) (s : State), ∃ good : Bool,
    exec (.cksumOk (body ++ [c])) s = .next { s with fnOut := some (.validated good body) } ∧
    (good = true ↔ crc8 body = c) ∧ (good = true ↔ crc8 (body ++ [c]) = 0))

/-! ## Encoding and decoding -/

/-- Whatever distinct sequence codes the block has (R83), decoding the packet of a well-formed operation gives that operation back,
with every operand. (A packet's bytes are the MODEL's layout: assumption log 8.) -/
def Obligations.DecodeEncodeRoundTrip : Prop :=
  ∀ (par : Params) (i : Instr) (pkt : Packet), par.SeqDistinct → i.WellFormed → encode par i = some pkt →
    decode par pkt i.timeInput i.answerInput = .ok i

/-- Whatever distinct sequence codes the block has (R83), a packet that decodes has one meaning: its operation is well formed and
encodes to that packet again. (A packet's bytes are the MODEL's layout: assumption log 8.) -/
def Obligations.EncodeDecodeRoundTrip : Prop :=
  ∀ (par : Params) (pkt : Packet) (now : Time) (txOk : Bool) (i : Instr), par.SeqDistinct → decode par pkt now txOk = .ok i →
    i.WellFormed ∧ encode par i = some pkt

/-- R86's selection, for the MODEL's packet of an inbound frame (assumption log 8): a frame of 0 to 8 bytes performs exactly one
operation, RX_ACK when the identifier's type is 7, whatever its sequence; otherwise the one its sequence field names, for any
distinct sequence codes (R83). With the default codes, mask and match are those of R86's table. -/
def Obligations.ReceiveSelection : Prop :=
  ∀ (par : Params) (id : Ident) (data : List Byte) (now : Time) (txOk : Bool), data.length ≤ 8 →
    let f := dec id
    let run := fun p : Params => decode p { port := .rx, bytes := encodeFrame { id := id, data := data } } now txOk
    (f.typ = 7 → run par = .ok (.rxAck f.prio f.addr f.seq data now)) ∧
    (f.typ ≠ 7 → par.SeqDistinct →
      (f.seq = par.seqStart → run par = .ok (.rxStart f.prio f.addr f.typ data now)) ∧
      (f.seq = par.seqMiddle → run par = .ok (.rxMiddle f.prio f.addr f.typ data now)) ∧
      (f.seq = par.seqEnd → run par = .ok (.rxEnd f.prio f.addr f.typ data now)) ∧
      (f.seq = par.seqSingle → run par = .ok (.rxSingle f.prio f.addr f.typ data now))) ∧
    (id &&& 0x007#11 = 0x007#11 → run Params.default = .ok (.rxAck f.prio f.addr f.seq data now)) ∧
    (id &&& 0x007#11 ≠ 0x007#11 →
      (id &&& 0x018#11 = 0x000#11 → run Params.default = .ok (.rxStart f.prio f.addr f.typ data now)) ∧
      (id &&& 0x018#11 = 0x008#11 → run Params.default = .ok (.rxMiddle f.prio f.addr f.typ data now)) ∧
      (id &&& 0x018#11 = 0x010#11 → run Params.default = .ok (.rxEnd f.prio f.addr f.typ data now)) ∧
      (id &&& 0x018#11 = 0x018#11 → run Params.default = .ok (.rxSingle f.prio f.addr f.typ data now)))

/-- R88's selection, in the MODEL's inputs: each time TXE is scheduled, which the list of turns in the state says (assumption log 11),
it performs the step that TX.state selects: 0 (IDLE) gives TX_IDLE, 1 (SENDING) TX_FRAG with `now` and the transport's answer, 2
(WAIT_ACK) TX_WAIT with `now`. The MODEL's one-byte packets that hold these codes (assumption log 8) decode alike. -/
def Obligations.TransmitSelection : Prop :=
  (∀ (s : State) (t : Turn) (turns : List Turn), s.env.turns = t :: turns → t.agent = .txe →
    let s1 : State := { s with env := { s.env with turns := turns } }
    (s.tx.state = .idle → step s = exec .txIdle s1) ∧
    (s.tx.state = .sending → step s = exec (.txFrag t.now t.txOk) s1) ∧
    (s.tx.state = .waitAck → step s = exec (.txWait t.now) s1)) ∧
  (∀ (par : Params) (now : Time) (txOk : Bool),
    decode par { port := .txe, bytes := [0] } now txOk = .ok .txIdle ∧
    decode par { port := .txe, bytes := [1] } now txOk = .ok (.txFrag now txOk) ∧
    decode par { port := .txe, bytes := [2] } now txOk = .ok (.txWait now))

/-- R90's refusal, in the MODEL's inputs: a step that is presented an inbound frame whose len is 9..15, with as many bytes as that or
not, refuses it. The packet (identifier in two bytes, low byte first, its five upper bits 0, then len, then the data) is the
model's layout (assumption log 8), and the lists of turns and frames in the state are the model's (assumption log 11). -/
def Obligations.IllegalFrameLengthRefused : Prop :=
  ∀ (s : State) (t : Turn) (turns : List Turn) (lo hi len : Byte) (data : List Byte) (rest : List (List Byte)),
    s.env.turns = t :: turns → t.agent = .rxp → s.env.frames = (lo :: hi :: len :: data) :: rest →
    hi.toNat < 8 → 9 ≤ len.toNat → len.toNat ≤ 15 → step s = .refused (.undecodable .illegalFrameLength)

/-- For the default parameters: the identifiers are written out bit by bit from R81 and the op codes from R87. The bytes around
them, one packet for a transaction, its ports, the low byte first and the operand bytes, are the MODEL's own layout (assumption
log 8), since the spec gives none. Such packets decode to the operations they stand for (sanity). -/
def Obligations.DecodedWords : Prop :=
  decode Params.default { port := .rx, bytes := [0x85, 0x00, 2, 0x10, 0x20] } 1000 false =
    .ok (.rxStart 0 4 5 [0x10, 0x20] 1000) ∧
  decode Params.default { port := .rx, bytes := [0x5B, 0x02, 1, 0xDE] } 0 false = .ok (.rxSingle 1 2 3 [0xDE] 0) ∧
  decode Params.default { port := .cmd, bytes := [1, 2] } 0 false = .ok (.cfgRetry 2) ∧
  decode Params.default { port := .cmd, bytes := [2, 5, 9, 0] } 0 false = .ok (.reg 5 9) ∧
  decode Params.default { port := .fn .kidx, bytes := [0xA3, 0x04] } 0 false = .ok (.kidx 0x4A3)

/-! ## The step -/

/-- A step runs the operation presented (that the inputs to come stand in the state, as packets, is the MODEL's choice: assumption
logs 8 and 11).
Where the next turn is an agent's and its port holds a packet that decodes to `i`, the step is `exec i` at the state whose
turn and whose packet are taken; a held command stays at its port. The transmit engine reads no port: TX.state selects its
step. The reset input runs RESET. -/
def Obligations.StepRunsPresentedOperation : Prop :=
  ∀ (s : State) (t : Turn) (turns : List Turn) (i : Instr), s.env.turns = t :: turns →
    (∀ bytes rest, t.agent = .host → s.env.commands = bytes :: rest →
      decode s.par { port := .cmd, bytes := bytes } t.now t.txOk = .ok i →
      step s = exec i { s with env := { s.env with turns := turns, commands := if isHeld s i then bytes :: rest else rest } }) ∧
    (∀ bytes rest, t.agent = .rxp → s.env.frames = bytes :: rest →
      decode s.par { port := .rx, bytes := bytes } t.now t.txOk = .ok i →
      step s = exec i { s with env := { s.env with turns := turns, frames := rest } }) ∧
    (t.agent = .txe →
      step s = exec (txStep s.tx.state t.now t.txOk) { s with env := { s.env with turns := turns } }) ∧
    (∀ f bytes rest, t.agent = .fn → s.env.calls = (f, bytes) :: rest →
      decode s.par { port := .fn f, bytes := bytes } t.now t.txOk = .ok i →
      step s = exec i { s with env := { s.env with turns := turns, calls := rest } }) ∧
    (t.agent = .resetInput → step s = exec .reset { s with env := { s.env with turns := turns } })

/-- With nothing presented the block waits (the MODEL's inputs: assumption log 11): no turn left changes nothing, and a turn whose
port is empty changes only the order (R41: the absence of a transaction; R173: no command this step). -/
def Obligations.StepWithNothingPresented : Prop :=
  (∀ s : State, s.env.turns = [] → step s = .next s) ∧
  (∀ (s : State) (t : Turn) (turns : List Turn), s.env.turns = t :: turns →
    (t.agent = .host ∧ s.env.commands = []) ∨ (t.agent = .rxp ∧ s.env.frames = []) ∨ (t.agent = .fn ∧ s.env.calls = []) →
    step s = .next { s with env := { s.env with turns := turns } })

/-- R140, and the same hold of R170: while a send is in progress SEND and CFG_RETRY do not happen. What "held" is in a run is the
MODEL's reading: the operation is a next state equal to the one before it (assumption log 1), and a step that meets one takes the
turn and leaves the command at the head of its port (assumption log 11). With TX.state = IDLE the command leaves its port and is
executed. -/
def Obligations.CommandsHeldDuringSend : Prop :=
  ∀ (s : State) (i : Instr), ((∃ p a t m, i = .send p a t m) ∨ ∃ limit, i = .cfgRetry limit) →
    (s.tx.state ≠ .idle → exec i s = .next s) ∧
    (∀ (u : Turn) (turns : List Turn) (bytes : List Byte) (rest : List (List Byte)),
      s.env.turns = u :: turns → u.agent = .host → s.env.commands = bytes :: rest →
      decode s.par { port := .cmd, bytes := bytes } u.now u.txOk = .ok i →
      (s.tx.state ≠ .idle → step s = .next { s with env := { s.env with turns := turns } }) ∧
      (s.tx.state = .idle → step s = exec i { s with env := { s.env with turns := turns, commands := rest } }))

/-! ## Receive path -/

/-- R160: RX_ACK completes on every frame of type 7; it sets ACK.satisfied exactly when the first payload byte equals
ACK.expected in all 8 bits, never clears it, and changes nothing else, whatever TX.state is. -/
def Obligations.RxAckSetsSatisfied : Prop :=
  ∀ (p : Prio) (a : Addr) (sq : SeqTag) (data : List Byte) (now : Time) (s : State),
    (∀ (b : Byte) (rest : List Byte), data = b :: rest → b.toNat = s.ack.expected.toNat →
      exec (.rxAck p a sq data now) s = .next { s with ack := { s.ack with satisfied := true } }) ∧
    ((∀ (b : Byte) (rest : List Byte), data = b :: rest → b.toNat ≠ s.ack.expected.toNat) →
      exec (.rxAck p a sq data now) s = .next s)

/-- R121 and R172: RX_SINGLE completes; it delivers the payload as it is when a handler is registered for the type and the
payload is not shorter than its size, and otherwise drops it silently. Nothing but the trace changes: no entry of the table,
no byte of memory, and no acknowledgment. -/
def Obligations.RxSingleDelivers : Prop :=
  ∀ (p : Prio) (a : Addr) (t : TypeId) (data : List Byte) (now : Time) (s : State),
    ((s.regAt t).valid = true → (s.regAt t).size.toNat ≤ data.length →
      exec (.rxSingle p a t data now) s = .next { s with trace := s.trace ++ [.deliver t data] }) ∧
    ((s.regAt t).valid = false ∨ data.length < (s.regAt t).size.toNat → exec (.rxSingle p a t data now) s = .next s)

/-- R122: RX_START completes on every payload of up to 8 bytes; the entry of its key is valid, created now, and holds exactly the
payload. Other entries, bytes of RAB outside the `data.length` bytes stored at offset 0 of the key's buffer, and everything
else stay as they were; no event. -/
def Obligations.RxStartCreatesEntry : Prop :=
  ∀ (p : Prio) (a : Addr) (t : TypeId) (data : List Byte) (now : Time) (s : State),
    data.length ≤ 8 → s.par.Ok →
    let k := kidx (packId p a s.par.seqStart t)
    ∃ u, exec (.rxStart p a t data now) s = .next u ∧
      (u.raAt k).valid = true ∧ (u.raAt k).ts = now ∧ (u.raAt k).len = data.length ∧
      rabRead u k 0 data.length = some data ∧
      (∀ j, j ≠ k → u.raAt j = s.raAt j) ∧
      (∀ j, j ≠ k → u.rabAt j = s.rabAt j) ∧ (∀ x, data.length ≤ x → (u.rabAt k).read x = (s.rabAt k).read x) ∧
      u.trace = s.trace ∧ SameOutsideTable s u

/-- R123 with R125 to R128: RX_MIDDLE completes. On an absent entry it changes nothing; on an entry older than 500 time units, or
one the bytes would make longer than RA_CAP (never with RA_CAP = ∞), it only clears RA[k].valid; on a live entry with room the
payload is appended after the bytes already accumulated, the length grows by it, and the timestamp is not refreshed. Other
entries, bytes outside those stored at offset RA[k].len, and everything else stay; no event. (That the accumulated bytes can
be read is part of the invariant: RaInv.written.) -/
def Obligations.RxMiddleDropsOrAppends : Prop :=
  ∀ (p : Prio) (a : Addr) (t : TypeId) (data : List Byte) (now : Time) (s : State),
    let k := kidx (packId p a s.par.seqMiddle t)
    ((s.raAt k).valid = false → exec (.rxMiddle p a t data now) s = .next s) ∧
    ((s.raAt k).valid = true →
      500 < (now - (s.raAt k).ts).toNat ∨ (∃ c ∈ s.par.raCap, c < (s.raAt k).len + data.length) →
      ∃ u, exec (.rxMiddle p a t data now) s = .next u ∧ u.raAt k = { s.raAt k with valid := false } ∧
        (∀ j, j ≠ k → u.raAt j = s.raAt j) ∧ u.rab = s.rab ∧ u.trace = s.trace ∧ SameOutsideTable s u) ∧
    ((s.raAt k).valid = true → (now - (s.raAt k).ts).toNat ≤ 500 →
      (∀ c ∈ s.par.raCap, (s.raAt k).len + data.length ≤ c) →
      ∃ u, exec (.rxMiddle p a t data now) s = .next u ∧
        (u.raAt k).valid = true ∧ (u.raAt k).ts = (s.raAt k).ts ∧
        (u.raAt k).len = (s.raAt k).len + data.length ∧
        rabRead u k (s.raAt k).len data.length = some data ∧
        (∀ acc, rabRead s k 0 (s.raAt k).len = some acc → rabRead u k 0 (u.raAt k).len = some (acc ++ data)) ∧
        (∀ j, j ≠ k → u.raAt j = s.raAt j) ∧
        (∀ j, j ≠ k → u.rabAt j = s.rabAt j) ∧
        (∀ x, x < (s.raAt k).len ∨ (s.raAt k).len + data.length ≤ x → (u.rabAt k).read x = (s.rabAt k).read x) ∧
        u.trace = s.trace ∧ SameOutsideTable s u)

/-- R124 with R125, R127, R161: RX_END completes. On an absent entry it changes nothing; on an expired entry, or one the bytes
would make longer than RA_CAP (never with RA_CAP = ∞), it only clears RA[k].valid. On a live entry with room it removes the
entry; with no byte accumulated nothing is emitted; otherwise the last byte is the checksum: unequal, nothing is emitted;
equal, the body is delivered if the filter passes, and then, whether it passed or not, one acknowledgment frame is emitted.
Other entries, bytes outside those stored at offset RA[k].len, and everything else stay. (That the accumulated bytes can be
read, `acc`, is part of the invariant: RaInv.written; the other case is StopsByName.) -/
def Obligations.RxEndDropsOrCompletes : Prop :=
  ∀ (p : Prio) (a : Addr) (t : TypeId) (data : List Byte) (now : Time) (s : State),
    let k := kidx (packId p a s.par.seqEnd t)
    ((s.raAt k).valid = false → exec (.rxEnd p a t data now) s = .next s) ∧
    ((s.raAt k).valid = true →
      500 < (now - (s.raAt k).ts).toNat ∨ (∃ c ∈ s.par.raCap, c < (s.raAt k).len + data.length) →
      ∃ u, exec (.rxEnd p a t data now) s = .next u ∧ u.raAt k = { s.raAt k with valid := false } ∧
        (∀ j, j ≠ k → u.raAt j = s.raAt j) ∧ u.rab = s.rab ∧ u.trace = s.trace ∧ SameOutsideTable s u) ∧
    (∀ acc, (s.raAt k).valid = true → (now - (s.raAt k).ts).toNat ≤ 500 →
      (∀ c ∈ s.par.raCap, (s.raAt k).len + data.length ≤ c) → rabRead s k 0 (s.raAt k).len = some acc →
      ∃ u, exec (.rxEnd p a t data now) s = .next u ∧
        u.raAt k = { s.raAt k with valid := false } ∧
        rabRead u k 0 ((s.raAt k).len + data.length) = some (acc ++ data) ∧
        (acc ++ data = [] → u.trace = s.trace) ∧
        (∀ body c, acc ++ data = body ++ [c] →
          (crc8 body ≠ c → u.trace = s.trace) ∧
          (crc8 body = c →
            u.trace = s.trace ++
              (if (s.regAt t).valid = true ∧ (s.regAt t).size.toNat ≤ body.length then [Event.deliver t body] else []) ++
              [Event.txf { id := packId (s.ackPrio p) a s.par.seqSingle 7, data := [t.setWidth 8] }])) ∧
        (∀ j, j ≠ k → u.raAt j = s.raAt j) ∧
        (∀ j, j ≠ k → u.rabAt j = s.rabAt j) ∧
        (∀ x, x < (s.raAt k).len ∨ (s.raAt k).len + data.length ≤ x → (u.rabAt k).read x = (s.rabAt k).read x) ∧
        SameOutsideTable s u)

/-- The model's own stops (assumption logs 10 and 14), by name: RX_END on a live entry with room and TX_FRAG while sending stop with
`unwrittenByte` when a byte they read was never written; RX_START stops with `bufferOverrun` when its payload is longer than a
buffer; CKSUM_OK of the empty sequence, which R112 excludes, is refused. From no state with the invariant does a well-formed
operation meet one (NoOperationFaults). -/
def Obligations.StopsByName : Prop :=
  ∀ (p : Prio) (a : Addr) (t : TypeId) (data : List Byte) (now : Time) (txOk : Bool) (s : State),
    ((s.raAt (kidx (packId p a s.par.seqEnd t))).valid = true →
      (now - (s.raAt (kidx (packId p a s.par.seqEnd t))).ts).toNat ≤ 500 →
      (∀ c ∈ s.par.raCap, (s.raAt (kidx (packId p a s.par.seqEnd t))).len + data.length ≤ c) →
      rabRead s (kidx (packId p a s.par.seqEnd t)) 0 (s.raAt (kidx (packId p a s.par.seqEnd t))).len = none →
      exec (.rxEnd p a t data now) s = .fault .unwrittenByte) ∧
    (s.tx.state = .sending →
      txbRead s (8 * s.tx.idx.toNat) (min 8 (s.tx.slen.toNat - 8 * s.tx.idx.toNat)) = none →
      exec (.txFrag now txOk) s = .fault .unwrittenByte) ∧
    ((∃ c ∈ s.par.raCap, c < data.length) → exec (.rxStart p a t data now) s = .fault .bufferOverrun) ∧
    exec (.cksumOk []) s = .refused .emptyChecksumOperand

/-- R125, R126: LOOKUP completes in every state: absent, expired (strictly more than 500 time units; the entry is dropped) or
live; EXPIRED on a valid entry answers that test and changes nothing. -/
def Obligations.LookupAndExpiry : Prop :=
  ∀ (k : Key) (now : Time) (s : State),
    ((s.raAt k).valid = false → exec (.lookup k now) s = .next { s with fnOut := some (.lookup .absent) }) ∧
    ((s.raAt k).valid = true → 500 < (now - (s.raAt k).ts).toNat →
      exec (.lookup k now) s = .next { s.dropEntry k with fnOut := some (.lookup .expired) } ∧
      exec (.expired k now) s = .next { s with fnOut := some (.expiry true) }) ∧
    ((s.raAt k).valid = true → (now - (s.raAt k).ts).toNat ≤ 500 →
      exec (.lookup k now) s = .next { s with fnOut := some (.lookup .live) } ∧
      exec (.expired k now) s = .next { s with fnOut := some (.expiry false) })

/-- The MODEL's choice: EXPIRED on an entry that is not valid, where R126 does not evaluate it, completes too; what it answers is
left open (assumption log 15) and nothing of the block changes. -/
def Obligations.ExpiredOfInvalidEntryCompletes : Prop :=
  ∀ (k : Key) (now : Time) (s : State), (s.raAt k).valid = false →
    ∃ b, exec (.expired k now) s = .next { s with fnOut := some (.expiry b), freeCount := s.freeCount + 1 }

/-- R172: DISPATCH completes on every type but 7, which R172 excludes, and every byte sequence: an unknown type or a message
shorter than the expected size is dropped, any other is delivered whole; nothing else changes. -/
def Obligations.DispatchFilters : Prop :=
  ∀ (t : TypeId) (bytes : List Byte) (s : State), t ≠ 7 →
    ((s.regAt t).valid = false → exec (.dispatch t bytes) s = .next s) ∧
    ((s.regAt t).valid = true → bytes.length < (s.regAt t).size.toNat → exec (.dispatch t bytes) s = .next s) ∧
    ((s.regAt t).valid = true → (s.regAt t).size.toNat ≤ bytes.length →
      exec (.dispatch t bytes) s = .next { s with trace := s.trace ++ [.deliver t bytes] })

/-- R85: for an acknowledged message of a type other than 7, the acknowledgment frame has sequence Single, type 7, the address of
the acknowledged message, the priority ACK_PRIO gives for its priority, and one payload byte equal to the message's type, 0 to 6;
with the default code of Single its low five bits are all ones. Emitting it changes nothing but the trace. -/
def Obligations.AckFrameFormat : Prop :=
  ∀ (p : Prio) (a : Addr) (t : TypeId) (s : State), t ≠ 7 → ∃ f : Frame,
    exec (.ackEmit p a t) s = .next { s with trace := s.trace ++ [.txf f] } ∧
    f.id.toNat = (s.ackPrio p).toNat * 512 + a.toNat * 32 + s.par.seqSingle.toNat * 8 + 7 ∧
    (s.par.seqSingle = 3 → f.id &&& 0x01F#11 = 0x01F#11) ∧
    f.data.map BitVec.toNat = [t.toNat] ∧ t.toNat ≤ 6

/-- The MODEL's choice (assumption log 14): on type 7, which R172 and R85 exclude, DISPATCH and ACK_EMIT run as their pseudocode
says: DISPATCH consults REG[7], and ACK_EMIT emits the frame with payload byte 7. No step runs either on its own. -/
def Obligations.InternalFunctionsOnType7 : Prop :=
  ∀ (p : Prio) (a : Addr) (bytes : List Byte) (s : State),
    ((s.regAt 7).valid = true → (s.regAt 7).size.toNat ≤ bytes.length →
      exec (.dispatch 7 bytes) s = .next { s with trace := s.trace ++ [.deliver 7 bytes] }) ∧
    ((s.regAt 7).valid = false ∨ bytes.length < (s.regAt 7).size.toNat → exec (.dispatch 7 bytes) s = .next s) ∧
    exec (.ackEmit p a 7) s = .next { s with
      trace := s.trace ++ [.txf { id := packId (s.ackPrio p) a s.par.seqSingle 7, data := [7] }] }

/-! ## Commands -/

/-- NOP (R173) completes in every state, and TX_IDLE (R145) with TX.state = IDLE; both change nothing. -/
def Obligations.OperationsWithoutEffect : Prop :=
  ∀ s : State, exec .nop s = .next s ∧ (s.tx.state = .idle → exec .txIdle s = .next s)

/-- The MODEL's choice between R90's two readings of the reserved op codes 5, 6, 7, "a model refuses them; hardware treats them as
NOP": they complete and change nothing (assumption log 12). -/
def Obligations.ReservedCommandsActAsNop : Prop :=
  ∀ s : State, exec .cmdReserved5 s = .next s ∧ exec .cmdReserved6 s = .next s ∧ exec .cmdReserved7 s = .next s

/-- R170: with the engine idle CFG_RETRY completes and writes CFG.retry_limit, whatever the value, and nothing else. Otherwise it is
held, and that a held operation is a next state equal to the one before it is the MODEL's reading (assumption log 1). -/
def Obligations.CfgRetryWritesLimit : Prop :=
  ∀ (limit : Retry) (s : State),
    (s.tx.state = .idle → exec (.cfgRetry limit) s = .next { s with cfg := { retryLimit := limit } }) ∧
    (s.tx.state ≠ .idle → exec (.cfgRetry limit) s = .next s)

/-- R171: REG completes in every state, also during a send; the entry of its type is valid with the new size, the other entries
and everything else stay. -/
def Obligations.RegRegisters : Prop :=
  ∀ (t : TypeId) (size : Len) (s : State), ∃ u, exec (.reg t size) s = .next u ∧
    u.regAt t = { valid := true, size := size } ∧ (∀ j, j ≠ t → u.regAt j = s.regAt j) ∧ u = { s with reg := u.reg }

/-- R142: with the engine idle, a SEND of type 7 or of more than TX_CAP bytes completes with DONE(REJECTED) and no other
effect. -/
def Obligations.SendRejected : Prop :=
  ∀ (p : Prio) (a : Addr) (t : TypeId) (m : List Byte) (s : State), s.tx.state = .idle →
    t = 7 ∨ s.par.txCap < m.length →
    exec (.send p a t m) s = .next { s with trace := s.trace ++ [.done .rejected] }

/-- R141: with the engine idle, a SEND of another type and of at most TX_CAP bytes completes: the engine holds the message's
fields and its stream (the message, and its checksum when it is longer than 8 bytes), starts at fragment 0 with no retry, and
the slot is armed exactly for a multi-frame message in retry-mode. TX.wait_start, every byte of TXB past the stream, and
everything else stay; no event. -/
def Obligations.SendStartsTransmission : Prop :=
  ∀ (p : Prio) (a : Addr) (t : TypeId) (m : List Byte) (s : State), s.par.Ok → s.tx.state = .idle → t ≠ 7 →
    m.length ≤ s.par.txCap →
    let stream := if m.length ≤ 8 then m else m ++ [crc8 m]
    ∃ u, exec (.send p a t m) s = .next u ∧
      u.tx.state = .sending ∧ u.tx.prio = p ∧ u.tx.addr = a ∧ u.tx.typ = t ∧
      u.tx.multi = decide (8 < m.length) ∧ u.tx.slen.toNat = stream.length ∧
      u.tx.nfrag.toNat = (if m.length ≤ 8 then 1 else (m.length + 1 + 7) / 8) ∧
      u.tx.idx = 0 ∧ u.tx.retries = 0 ∧ u.tx.waitStart = s.tx.waitStart ∧
      txbRead u 0 stream.length = some stream ∧ (∀ x, stream.length ≤ x → u.txb.read x = s.txb.read x) ∧
      u.ack = (if 8 < m.length ∧ 0 < s.cfg.retryLimit.toNat then { expected := t, satisfied := false } else s.ack) ∧
      u.par = s.par ∧ u.cfg = s.cfg ∧ u.reg = s.reg ∧ u.ra = s.ra ∧ u.rab = s.rab ∧ u.trace = s.trace ∧
      u.fnOut = s.fnOut ∧ u.freeCount = s.freeCount ∧ u.env = s.env

/-- R174, R215: RESET completes in every state, also during a send, and emits nothing: the retry limit is RETRY_LIMIT_RESET, no
handler is registered, the slot is (0, 0), the engine is idle and the table is empty. (Nothing is said of the elements the rule
calls unspecified.) -/
def Obligations.ResetPutsResetValues : Prop :=
  ∀ s : State, ∃ u, exec .reset s = .next u ∧
    u.cfg.retryLimit = s.par.retryLimitReset ∧ (∀ t, (u.regAt t).valid = false) ∧
    u.ack = { expected := 0, satisfied := false } ∧ u.tx.state = .idle ∧ (∀ k, (u.raAt k).valid = false) ∧
    u.trace = s.trace ∧ u.par = s.par ∧ u.fnOut = s.fnOut ∧ u.env = s.env

/-- R215: the state after reset of an instance with the default parameters. -/
def Obligations.ResetStateValues : Prop :=
  State.reset.cfg.retryLimit = 0 ∧ (∀ t, (State.reset.regAt t).valid = false) ∧
    State.reset.ack = { expected := 0, satisfied := false } ∧ State.reset.tx.state = .idle ∧
    (∀ k, (State.reset.raAt k).valid = false) ∧ State.reset.trace = []

/-! ## Transmit engine -/

/-- R146 to R149: with TX.state = SENDING and the fragment's bytes in TXB, TX_FRAG completes and emits fragment TX.idx, tagged as
R144 says. A refused fragment ends the send with DONE(FAIL_TRANSPORT); after an accepted one TX.idx advances while fragments
remain; after the last, a single-frame message or a retry limit of 0 ends with DONE(OK), and otherwise the wait begins now.
Nothing else changes. -/
def Obligations.TxFragTransmits : Prop :=
  ∀ (now : Time) (data : List Byte) (s : State), s.tx.state = .sending →
    txbRead s (8 * s.tx.idx.toNat) (min 8 (s.tx.slen.toNat - 8 * s.tx.idx.toNat)) = some data →
    let tag : SeqTag := if s.tx.multi = false then s.par.seqSingle else if s.tx.idx.toNat = 0 then s.par.seqStart
      else if s.tx.idx.toNat = s.tx.nfrag.toNat - 1 then s.par.seqEnd else s.par.seqMiddle
    let sent : Event := .txf { id := packId s.tx.prio s.tx.addr tag s.tx.typ, data := data }
    exec (.txFrag now false) s =
      .next { s with tx := { s.tx with state := .idle }, trace := s.trace ++ [sent, .done .failTransport] } ∧
    (s.tx.idx.toNat + 1 < s.tx.nfrag.toNat →
      exec (.txFrag now true) s = .next { s with tx := { s.tx with idx := s.tx.idx + 1 }, trace := s.trace ++ [sent] }) ∧
    (s.tx.nfrag.toNat ≤ s.tx.idx.toNat + 1 → s.tx.multi = false ∨ s.cfg.retryLimit = 0 →
      exec (.txFrag now true) s =
        .next { s with tx := { s.tx with state := .idle }, trace := s.trace ++ [sent, .done .ok] }) ∧
    (s.tx.nfrag.toNat ≤ s.tx.idx.toNat + 1 → s.tx.multi = true → s.cfg.retryLimit ≠ 0 →
      exec (.txFrag now true) s =
        .next { s with tx := { s.tx with state := .waitAck, waitStart := now }, trace := s.trace ++ [sent] })

/-- R151 to R155: with TX.state = WAIT_ACK, TX_WAIT completes. A satisfied slot ends the send with DONE(OK), also when the
timeout is due; at 100 time units or more it retransmits while retries remain, and otherwise emits ERR with the message's type
and address and then DONE(FAIL_NOACK); before that it changes nothing. Nothing else changes in any case. -/
def Obligations.TxWaitPolls : Prop :=
  ∀ (now : Time) (s : State), s.tx.state = .waitAck →
    (s.ack.satisfied = true →
      exec (.txWait now) s = .next { s with tx := { s.tx with state := .idle }, trace := s.trace ++ [.done .ok] }) ∧
    (s.ack.satisfied = false → 100 ≤ (now - s.tx.waitStart).toNat → s.tx.retries.toNat < s.cfg.retryLimit.toNat →
      exec (.txWait now) s =
        .next { s with tx := { s.tx with retries := s.tx.retries + 1, idx := 0, state := .sending } }) ∧
    (s.ack.satisfied = false → 100 ≤ (now - s.tx.waitStart).toNat → s.cfg.retryLimit.toNat ≤ s.tx.retries.toNat →
      exec (.txWait now) s =
        .next { s with
          tx := { s.tx with state := .idle }, trace := s.trace ++ [.err s.tx.typ s.tx.addr, .done .failNoack] }) ∧
    (s.ack.satisfied = false → (now - s.tx.waitStart).toNat < 100 → exec (.txWait now) s = .next s)

/-- A transmit step that TX.state does not select changes nothing (the MODEL's reading of R11 and R88: assumption log 13): TX_IDLE
outside IDLE, TX_FRAG outside SENDING, TX_WAIT outside WAIT_ACK. The reserved code 3 of TX.state, in the MODEL's packet (assumption
log 8), decodes to the operation without a meaning (R90, R26), and that is refused in every state. -/
def Obligations.UnselectedTransmitSteps : Prop :=
  ∀ (now : Time) (txOk : Bool) (s : State),
    (s.tx.state ≠ .idle → exec .txIdle s = .next s) ∧
    (s.tx.state ≠ .sending → exec (.txFrag now txOk) s = .next s) ∧
    (s.tx.state ≠ .waitAck → exec (.txWait now) s = .next s) ∧
    decode s.par { port := .txe, bytes := [3] } now txOk = .ok .txStateReserved3 ∧
    exec .txStateReserved3 s = .refused .txStateReserved

/-- R94, R143: FRAG completes and answers the frames of one attempt. A message of up to 8 bytes is one frame tagged Single that
holds it; a longer one is ceil((L + 1) / 8) frames whose payloads, joined in order, are the message and its checksum, all of 8
bytes but the last, tagged Start, Middle, End, and all with the message's priority, address and type. -/
def Obligations.FragCutsMessage : Prop :=
  ∀ (p : Prio) (a : Addr) (t : TypeId) (m : List Byte) (s : State), ∃ fs : List Frame,
    exec (.frag p a t m) s = .next { s with fnOut := some (.frames fs) } ∧
    (m.length ≤ 8 → fs = [{ id := packId p a s.par.seqSingle t, data := m }]) ∧
    (8 < m.length →
      2 ≤ fs.length ∧ fs.length = (m.length + 1 + 7) / 8 ∧ fs.flatMap Frame.data = m ++ [crc8 m] ∧
      ∀ j, (h : j < fs.length) →
        fs[j].data.length = min 8 (m.length + 1 - 8 * j) ∧ 1 ≤ fs[j].data.length ∧
        (j + 1 < fs.length → fs[j].data.length = 8) ∧
        fs[j].id =
          packId p a (if j = 0 then s.par.seqStart else if j = fs.length - 1 then s.par.seqEnd else s.par.seqMiddle) t)

/-- R150 step 1, R146: whatever the times, the TX steps of one attempt whose fragments the transport accepts emit exactly the
frames of FRAG, in order; then a single-frame message or retry limit 0 ends with DONE(OK), and otherwise the engine waits. -/
def Obligations.AttemptTransmitsFrag : Prop :=
  ∀ (p : Prio) (a : Addr) (t : TypeId) (m : List Byte) (s s1 : State) (times : List Time),
    BlockInv s → s.tx.state = .idle → t ≠ 7 → m.length ≤ s.par.txCap → exec (.send p a t m) s = .next s1 →
    times.length = (frag s.par p a t m).length →
    ∃ u, txeRun times s1 = .next u ∧
      (if 8 < m.length ∧ 0 < s.cfg.retryLimit.toNat then
        u.tx.state = .waitAck ∧ u.trace = s.trace ++ (frag s.par p a t m).map .txf
      else u.tx.state = .idle ∧ u.trace = s.trace ++ (frag s.par p a t m).map .txf ++ [.done .ok])

/-- R156: with retry limit N > 0, no acknowledgment and every fragment accepted, a multi-frame SEND that has come to its end
has emitted exactly N + 1 transmissions of the full fragment sequence, then one ERR with its type and address and one
DONE(FAIL_NOACK), whatever the times of the steps were. -/
def Obligations.RetryCountLaw : Prop :=
  ∀ (p : Prio) (a : Addr) (t : TypeId) (m : List Byte) (s s1 u : State) (times : List Time),
    BlockInv s → s.tx.state = .idle → t ≠ 7 → 8 < m.length → m.length ≤ s.par.txCap → 0 < s.cfg.retryLimit.toNat →
    exec (.send p a t m) s = .next s1 → txeRun times s1 = .next u → u.tx.state = .idle →
    u.trace = s.trace ++ (List.replicate (s.cfg.retryLimit.toNat + 1) ((frag s.par p a t m).map Event.txf)).flatten ++
      [.err t a, .done .failNoack]

/-- Such a SEND does come to its end: some (N + 1)·(n + 1) steps (n fragments and one poll for each transmission) suffice. -/
def Obligations.UnacknowledgedSendEnds : Prop :=
  ∀ (p : Prio) (a : Addr) (t : TypeId) (m : List Byte) (s s1 : State),
    BlockInv s → s.tx.state = .idle → t ≠ 7 → 8 < m.length → m.length ≤ s.par.txCap → 0 < s.cfg.retryLimit.toNat →
    exec (.send p a t m) s = .next s1 →
    ∃ times u, times.length = (s.cfg.retryLimit.toNat + 1) * ((frag s.par p a t m).length + 1) ∧
      txeRun times s1 = .next u ∧ u.tx.state = .idle

/-- R134: presenting the frames of FRAG in order, each no more than 500 time units after the first, to a receiver with a handler
for the type whose size is not above the length, emits exactly one DELIVER of the message, and for a multi-frame message one
acknowledgment after it, whatever the entry of the key was before. (The rule also admits frames of other keys in between; those
are ReceiveLeavesOtherKeys.) -/
def Obligations.FragmentationRoundTrip : Prop :=
  ∀ (p : Prio) (a : Addr) (t : TypeId) (m : List Byte) (first : Time) (later : List Time) (s : State),
    BlockInv s → t ≠ 7 → m.length ≤ s.par.txCap → (∀ c ∈ s.par.raCap, m.length + 1 ≤ c) → (s.regAt t).valid = true →
    (s.regAt t).size.toNat ≤ m.length → (first :: later).length = (frag s.par p a t m).length →
    (∀ now ∈ later, (now - first).toNat ≤ 500) →
    ∃ u, execAll (receiveAll s.par ((frag s.par p a t m).zip (first :: later))) s = .next u ∧
      u.trace = s.trace ++ [.deliver t m] ++
        (if 8 < m.length then [.txf { id := packId (s.ackPrio p) a s.par.seqSingle 7, data := [t.setWidth 8] }] else [])

/-! ## The whole machine -/

/-- R177: elapsed time is the plain difference, or the difference across one wrap of the 32-bit time input. -/
def Obligations.ElapsedTimeAcrossWrap : Prop :=
  (∀ now ts : Time, ts.toNat ≤ now.toNat → (elapsed now ts).toNat = now.toNat - ts.toNat) ∧
  (∀ now ts : Time, now.toNat < ts.toNat → (elapsed now ts).toNat = 2 ^ 32 + now.toNat - ts.toNat)

/-- R129: an operation on an inbound data frame leaves the entry and the bytes of every other key alone. -/
def Obligations.ReceiveLeavesOtherKeys : Prop :=
  ∀ (id : Ident) (data : List Byte) (now : Time) (s u : State) (j : Key),
    (dec id).typ ≠ 7 → j ≠ kidx id → exec (classify s.par id data now) s = .next u →
    u.raAt j = s.raAt j ∧ u.rabAt j = s.rabAt j

/-- What an inbound data frame does depends on nothing of the other keys, nor on the transmit side: two states that agree on the
parameters, the registry and the frame's own key emit the same events for it and leave its key alike. -/
def Obligations.ReceiveDependsOnOwnKey : Prop :=
  ∀ (id : Ident) (data : List Byte) (now : Time) (s s' u : State), (dec id).typ ≠ 7 →
    s'.par = s.par → s'.reg = s.reg → s'.raAt (kidx id) = s.raAt (kidx id) →
    s'.rabAt (kidx id) = s.rabAt (kidx id) →
    exec (classify s.par id data now) s = .next u →
    ∃ u' es, exec (classify s.par id data now) s' = .next u' ∧ u.trace = s.trace ++ es ∧ u'.trace = s'.trace ++ es ∧
      u'.raAt (kidx id) = u.raAt (kidx id) ∧ u'.rabAt (kidx id) = u.rabAt (kidx id)

/-- Each element of the state is written only by operations that R20's table names for it (LOOKUP, run on its own, being part of
RX_MIDDLE and RX_END): whatever operation completes, an element that changed was written by one of them. RESET is named for every
element, since it leaves the unspecified ones open (R215). No operation writes the parameters (R46) or the inputs to come. -/
def Obligations.OnlyTheNamedWriters : Prop :=
  ∀ (i : Instr) (s u : State), exec i s = .next u →
    let send := ∃ p a t m, i = .send p a t m
    let txFrag := ∃ now txOk, i = .txFrag now txOk
    let txWait := ∃ now, i = .txWait now
    let rxStart := ∃ p a t data now, i = .rxStart p a t data now
    let rxMiddle := ∃ p a t data now, i = .rxMiddle p a t data now
    let rxEnd := ∃ p a t data now, i = .rxEnd p a t data now
    (u.cfg.retryLimit ≠ s.cfg.retryLimit → i = .reset ∨ ∃ limit, i = .cfgRetry limit) ∧
    (∀ t, u.regAt t ≠ s.regAt t → i = .reset ∨ ∃ size, i = .reg t size) ∧
    (u.ack.expected ≠ s.ack.expected → i = .reset ∨ send) ∧
    (u.ack.satisfied ≠ s.ack.satisfied → i = .reset ∨ send ∨ ∃ p a sq data now, i = .rxAck p a sq data now) ∧
    (u.tx.state ≠ s.tx.state → i = .reset ∨ send ∨ txFrag ∨ txWait) ∧
    (u.tx.prio ≠ s.tx.prio ∨ u.tx.addr ≠ s.tx.addr ∨ u.tx.typ ≠ s.tx.typ ∨ u.tx.multi ≠ s.tx.multi ∨
      u.tx.slen ≠ s.tx.slen ∨ u.tx.nfrag ≠ s.tx.nfrag → i = .reset ∨ send) ∧
    (u.tx.idx ≠ s.tx.idx → i = .reset ∨ send ∨ txFrag ∨ txWait) ∧
    (u.tx.retries ≠ s.tx.retries → i = .reset ∨ send ∨ txWait) ∧
    (u.tx.waitStart ≠ s.tx.waitStart → i = .reset ∨ txFrag) ∧
    (u.txb ≠ s.txb → i = .reset ∨ send) ∧
    (∀ k, ((u.raAt k).valid ≠ (s.raAt k).valid →
        i = .reset ∨ rxStart ∨ rxMiddle ∨ rxEnd ∨ ∃ now, i = .lookup k now) ∧
      ((u.raAt k).ts ≠ (s.raAt k).ts → i = .reset ∨ rxStart) ∧
      ((u.raAt k).len ≠ (s.raAt k).len → i = .reset ∨ rxStart ∨ rxMiddle ∨ rxEnd) ∧
      (u.rabAt k ≠ s.rabAt k → i = .reset ∨ rxStart ∨ rxMiddle ∨ rxEnd)) ∧
    u.par = s.par ∧ u.env = s.env

/-- R25: ACK.satisfied is set by RX_ACK alone, when the frame's byte equals ACK.expected, and is sticky: once 1 it stays 1 until
a SEND that arms the slot, or RESET. -/
def Obligations.SatisfiedIsSticky : Prop :=
  ∀ (i : Instr) (s u : State), exec i s = .next u →
    (s.ack.satisfied = true → u.ack.satisfied = false →
      i = .reset ∨ ∃ p a t m, i = .send p a t m ∧ 8 < m.length ∧ 0 < s.cfg.retryLimit.toNat) ∧
    (s.ack.satisfied = false → u.ack.satisfied = true →
      ∃ p a sq b rest now, i = .rxAck p a sq (b :: rest) now ∧ b.toNat = s.ack.expected.toNat)

/-- R128: only RX_START writes a timestamp (RESET leaves it unspecified): RX_MIDDLE and RX_END do not refresh it. -/
def Obligations.OnlyStartWritesTimestamp : Prop :=
  ∀ (i : Instr) (s u : State) (k : Key), exec i s = .next u → (u.raAt k).ts ≠ (s.raAt k).ts →
    i = .reset ∨ ∃ p a t data now, i = .rxStart p a t data now ∧ k = kidx (packId p a s.par.seqStart t) ∧
      (u.raAt k).ts = now

/-- The transitions of TX.state are those of R179's table: whatever operation completes and changes it. -/
def Obligations.SequencerTransitions : Prop :=
  ∀ (i : Instr) (s u : State), exec i s = .next u → u.tx.state ≠ s.tx.state →
    (i = .reset ∧ u.tx.state = .idle) ∨
    (s.tx.state = .idle ∧ u.tx.state = .sending ∧ u.tx.idx = 0 ∧ u.trace = s.trace ∧ ∃ p a t m, i = .send p a t m) ∨
    (s.tx.state = .sending ∧ u.tx.state = .idle ∧ u.tx.idx = s.tx.idx ∧ ∃ now f x, i = .txFrag now x ∧
      ((x = false ∧ u.trace = s.trace ++ [.txf f, .done .failTransport]) ∨
        (x = true ∧ u.trace = s.trace ++ [.txf f, .done .ok]))) ∨
    (s.tx.state = .sending ∧ u.tx.state = .waitAck ∧ u.tx.idx = s.tx.idx ∧ ∃ now f, i = .txFrag now true ∧
      u.tx.waitStart = now ∧ u.trace = s.trace ++ [.txf f]) ∨
    (s.tx.state = .waitAck ∧ u.tx.state = .idle ∧ u.tx.idx = s.tx.idx ∧ (∃ now, i = .txWait now) ∧
      (u.trace = s.trace ++ [.done .ok] ∨ u.trace = s.trace ++ [.err s.tx.typ s.tx.addr, .done .failNoack])) ∨
    (s.tx.state = .waitAck ∧ u.tx.state = .sending ∧ u.tx.idx = 0 ∧ u.tx.retries = s.tx.retries + 1 ∧
      u.trace = s.trace ∧ ∃ now, i = .txWait now)

/-- Events are only ever appended to the output (R76), and each kind has its emitters: DELIVER the receive path, TXF the transmit
engine and the acknowledgment, ERR the exhausted wait alone (R195), DONE a SEND or its TX steps (R186). -/
def Obligations.EventsHaveTheirEmitters : Prop :=
  ∀ (i : Instr) (s u : State), exec i s = .next u → ∃ es, u.trace = s.trace ++ es ∧ ∀ e ∈ es,
    match e with
    | .deliver _ _ =>
      (∃ p a t data now, i = .rxSingle p a t data now) ∨ (∃ p a t data now, i = .rxEnd p a t data now) ∨
        ∃ t bytes, i = .dispatch t bytes
    | .txf _ =>
      (∃ now txOk, i = .txFrag now txOk) ∨ (∃ p a t data now, i = .rxEnd p a t data now) ∨ ∃ p a t, i = .ackEmit p a t
    | .err t a => (∃ now, i = .txWait now) ∧ t = s.tx.typ ∧ a = s.tx.addr
    | .done _ => (∃ p a t m, i = .send p a t m) ∨ (∃ now txOk, i = .txFrag now txOk) ∨ ∃ now, i = .txWait now

/-- With CFG.retry_limit = 0 no error notification ever occurs (R195), from any state with the invariant. -/
def Obligations.NoErrorWithoutRetries : Prop :=
  ∀ (i : Instr) (s u : State), BlockInv s → s.cfg.retryLimit = 0 → exec i s = .next u →
    ∀ t a, Event.err t a ∈ u.trace → Event.err t a ∈ s.trace

/-- The invariant holds right after reset, for the defaults and for any instance whose parameters meet their constraints. -/
def Obligations.InvariantAfterReset : Prop :=
  BlockInv State.reset ∧ ∀ (par : Params) (n : Nat), par.Ok → BlockInv (State.afterReset par n)

/-- Every well-formed operation keeps the invariant. -/
def Obligations.OperationsKeepInvariant : Prop :=
  ∀ (i : Instr) (s u : State), i.WellFormed → BlockInv s → exec i s = .next u → BlockInv u

/-- Every step keeps the invariant: memories in canonical form and inside their arrays (R60), entries within RA_CAP (R33) and
wholly written (R31), no entry of type 7 (R30), TX.state never 3 (R26), a send in progress of the shape of R28 and R29. -/
def Obligations.StepKeepsInvariant : Prop :=
  ∀ s u : State, BlockInv s → step s = .next u → BlockInv u

/-- R11: no operation faults or traps: from a state with the invariant no well-formed operation and no step stops with a
fault. -/
def Obligations.NoOperationFaults : Prop :=
  (∀ (i : Instr) (s : State) (f : Fault), i.WellFormed → BlockInv s → exec i s ≠ .fault f) ∧ ∀ s : State, BlockInv s → StepSafe s

/-- From a state with the invariant no run stops with a fault, and a step refuses only a packet that is no operation
(packets are the MODEL's: assumption log 8). -/
def Obligations.RunsStopOnlyOnIllegalInput : Prop :=
  (∀ (n : Nat) (s : State), BlockInv s → ∀ f, Sys2Proof.core.run n s ≠ .fault f) ∧
  (∀ (s : State) (r : Refusal), BlockInv s → step s = .refused r → ∃ e, r = .undecodable e)
end

