-- ==== Sys2Proof/Laws/Memory.lean ====
section
/-! SUPPORT. The laws of a byte memory: every operation keeps the canonical form, a read after a write to the same place gives
the value written, a write leaves every other place alone, and the same for the byte sequences of MemRead and MemWrite. -/

namespace Sys2Proof.Machine

@[simp] theorem Memory.read_nil (a : Nat) : Memory.read a [] = none := rfl

/-- A read after a write. -/
theorem Memory.read_write (m : Memory) (a : Nat) (b : Byte) (c : Nat) :
    Memory.read c (m.write a b) = if c = a then some b else Memory.read c m := by
  induction m with
  | nil =>
    by_cases h : a = c
    · simp [Memory.write, Memory.read, h]
    · simp [Memory.write, Memory.read, h, Ne.symm h]
  | cons x m ih =>
    simp only [Memory.write]
    split
    · by_cases h : a = c
      · simp [Memory.read, h]
      · simp [Memory.read, h, Ne.symm h]
    · split
      · next h2 =>
        by_cases h : a = c
        · simp [Memory.read, h]
        · simp [Memory.read, h, Ne.symm h, ← h2]
      · next h2 =>
        by_cases h : x.1 = c
        · have h' : c ≠ a := fun e => h2 (by omega)
          simp [Memory.read, h, h']
        · simp [Memory.read, h, ih]

/-- Every address of a memory after a write is the one written or was there before. -/
theorem Memory.mem_write {m : Memory} {a : Nat} {b : Byte} {c : Host.Cell} (h : c ∈ m.write a b) : c.1 = a ∨ c ∈ m := by
  induction m with
  | nil => simp [Memory.write] at h; exact .inl (by simp [h])
  | cons x m ih =>
    simp only [Memory.write] at h
    split at h
    · simp only [List.mem_cons] at h ⊢
      rcases h with h | h | h
      · exact .inl (by simp [h])
      · exact .inr (.inl h)
      · exact .inr (.inr h)
    · split at h
      · simp only [List.mem_cons] at h ⊢
        rcases h with h | h
        · exact .inl (by simp [h])
        · exact .inr (.inr h)
      · simp only [List.mem_cons] at h ⊢
        rcases h with h | h
        · exact .inr (.inl h)
        · exact (ih h).imp_right .inr

/-- Writing one byte keeps the canonical form. -/
theorem Memory.wf_write {m : Memory} (h : m.wf) (a : Nat) (b : Byte) : (m.write a b).wf := by
  induction m with
  | nil => simp [Memory.write, Memory.wf]
  | cons x m ih =>
    have hx := List.pairwise_cons.1 h
    simp only [Memory.write]
    split
    · next h1 =>
      refine List.pairwise_cons.2 ⟨fun c hc => ?_, h⟩
      rcases List.mem_cons.1 hc with e | hc
      · subst e; exact h1
      · exact Nat.lt_trans h1 (hx.1 c hc)
    · split
      · next h2 => exact List.pairwise_cons.2 ⟨fun c hc => by have := hx.1 c hc; simp only; omega, hx.2⟩
      · next h1 h2 =>
        refine List.pairwise_cons.2 ⟨fun c hc => ?_, ih hx.2⟩
        rcases Memory.mem_write hc with e | hc
        · omega
        · exact hx.1 c hc

/-- MemWrite keeps the canonical form. -/
theorem Memory.wf_writeBytes {m : Memory} (h : m.wf) (a : Nat) (bs : List Byte) : (m.writeBytes a bs).wf := by
  induction bs generalizing a m with
  | nil => exact h
  | cons b bs ih => exact ih (Memory.wf_write h a b) (a + 1)

/-- Every address of a memory after MemWrite is one of those written or was there before. -/
theorem Memory.mem_writeBytes {m : Memory} {a : Nat} {bs : List Byte} {c : Host.Cell} (h : c ∈ m.writeBytes a bs) :
    (a ≤ c.1 ∧ c.1 < a + bs.length) ∨ c ∈ m := by
  induction bs generalizing a m with
  | nil => exact .inr h
  | cons b bs ih =>
    rcases ih h with h | h
    · exact .inl (by simp only [List.length_cons]; omega)
    · rcases Memory.mem_write h with h | h
      · exact .inl (by simp only [List.length_cons]; omega)
      · exact .inr h

/-- A byte read after MemWrite: the written byte inside the range, the old one outside. -/
theorem Memory.read_writeBytes (m : Memory) (a : Nat) (bs : List Byte) (c : Nat) :
    Memory.read c (m.writeBytes a bs) = if a ≤ c ∧ c < a + bs.length then bs[c - a]? else Memory.read c m := by
  induction bs generalizing a m with
  | nil => rw [if_neg (by simp only [List.length_nil]; omega)]; rfl
  | cons b bs ih =>
    rw [Memory.writeBytes, ih, Memory.read_write]
    by_cases h1 : c = a
    · subst h1; simp
    · by_cases h2 : a + 1 ≤ c ∧ c < a + 1 + bs.length
      · have h3 : a ≤ c ∧ c < a + (b :: bs).length := by simp only [List.length_cons]; omega
        rw [if_pos h2, if_pos h3, show c - a = c - (a + 1) + 1 by omega, List.getElem?_cons_succ]
      · have h3 : ¬(a ≤ c ∧ c < a + (b :: bs).length) := by simp only [List.length_cons]; omega
        rw [if_neg h2, if_neg h3, if_neg h1]

/-- A MemWrite leaves every byte outside its range alone. -/
theorem Memory.read_writeBytes_outside (m : Memory) (a : Nat) (bs : List Byte) {c : Nat} (h : c < a ∨ a + bs.length ≤ c) :
    Memory.read c (m.writeBytes a bs) = Memory.read c m := by
  rw [Memory.read_writeBytes, if_neg (by omega)]

/-- What MemRead answers, byte by byte. -/
theorem Memory.readBytes_eq_some {m : Memory} {a n : Nat} {bs : List Byte} :
    m.readBytes a n = some bs ↔ bs.length = n ∧ ∀ i, (h : i < bs.length) → m.read (a + i) = some bs[i] := by
  induction n generalizing a bs with
  | zero =>
    constructor
    · intro h; simp [Memory.readBytes] at h; subst h; simp
    · rintro ⟨h, -⟩; simp [Memory.readBytes, List.eq_nil_of_length_eq_zero h]
  | succ n ih =>
    rw [Memory.readBytes]
    constructor
    · intro h
      split at h
      · next b bs' h1 h2 =>
        cases h
        obtain ⟨hl, hb⟩ := ih.1 h2
        refine ⟨by simp [hl], fun i hi => ?_⟩
        cases i with
        | zero => simpa using h1
        | succ i =>
          have := hb i (by simpa using hi)
          rw [show a + (i + 1) = a + 1 + i by omega, this]; simp
      · cases h
    · rintro ⟨hl, hb⟩
      cases bs with
      | nil => simp at hl
      | cons b bs =>
        have h0 := hb 0 (by simp)
        have h1 : m.readBytes (a + 1) n = some bs := ih.2 ⟨by simpa using hl, fun i hi => by
          have := hb (i + 1) (by simpa using hi)
          rw [show a + 1 + i = a + (i + 1) by omega, this]; simp⟩
        simp only [Nat.add_zero, List.getElem_cons_zero] at h0
        simp [h0, h1]

/-- MemRead gives as many bytes as it was asked for. -/
theorem Memory.readBytes_length {m : Memory} {a n : Nat} {bs : List Byte} (h : m.readBytes a n = some bs) : bs.length = n :=
  (Memory.readBytes_eq_some.1 h).1

/-- MemRead after MemWrite at the same place gives the bytes written. -/
theorem Memory.readBytes_writeBytes (m : Memory) (a : Nat) (bs : List Byte) :
    (m.writeBytes a bs).readBytes a bs.length = some bs := by
  refine Memory.readBytes_eq_some.2 ⟨rfl, fun i hi => ?_⟩
  rw [Memory.read_writeBytes, if_pos (by omega), show a + i - a = i by omega, List.getElem?_eq_getElem hi]

/-- MemRead of a range that agrees byte for byte. -/
theorem Memory.readBytes_congr {m m' : Memory} {a n : Nat} (h : ∀ i, i < n → m'.read (a + i) = m.read (a + i)) :
    m'.readBytes a n = m.readBytes a n := by
  induction n generalizing a with
  | zero => rfl
  | succ n ih =>
    have h0 := h 0 (by omega)
    have h1 : m'.readBytes (a + 1) n = m.readBytes (a + 1) n := ih fun i hi => by
      have := h (i + 1) (by omega)
      rwa [show a + 1 + i = a + (i + 1) by omega]
    simp only [Nat.add_zero] at h0
    rw [Memory.readBytes, Memory.readBytes, h0, h1]

/-- MemRead of a range apart from the one written gives what it gave before. -/
theorem Memory.readBytes_writeBytes_apart (m : Memory) (a : Nat) (bs : List Byte) {c n : Nat}
    (h : c + n ≤ a ∨ a + bs.length ≤ c) : (m.writeBytes a bs).readBytes c n = m.readBytes c n :=
  Memory.readBytes_congr fun i hi => Memory.read_writeBytes_outside m a bs (by omega)

/-- MemRead of two ranges that follow each other. -/
theorem Memory.readBytes_append {m : Memory} {a n k : Nat} {xs ys : List Byte} (hx : m.readBytes a n = some xs)
    (hy : m.readBytes (a + n) k = some ys) : m.readBytes a (n + k) = some (xs ++ ys) := by
  obtain ⟨lx, bx⟩ := Memory.readBytes_eq_some.1 hx
  obtain ⟨ly, bY⟩ := Memory.readBytes_eq_some.1 hy
  refine Memory.readBytes_eq_some.2 ⟨by simp [lx, ly], fun i hi => ?_⟩
  by_cases h : i < xs.length
  · rw [bx i h, List.getElem_append_left h]
  · have hi' : i - xs.length < ys.length := by simp only [List.length_append] at hi; omega
    have := bY (i - xs.length) hi'
    rw [List.getElem_append_right (by omega), ← this]
    congr 1; omega

/-- An append: MemRead of the whole after MemWrite at the end of what was there. -/
theorem Memory.readBytes_append_writeBytes {m : Memory} {a n : Nat} {xs : List Byte} (hx : m.readBytes a n = some xs)
    (bs : List Byte) : (m.writeBytes (a + n) bs).readBytes a (n + bs.length) = some (xs ++ bs) :=
  Memory.readBytes_append (by rw [Memory.readBytes_writeBytes_apart _ _ _ (.inl (Nat.le_refl _)), hx])
    (Memory.readBytes_writeBytes m (a + n) bs)

/-- A part of a range that can be read can be read, and gives that part. -/
theorem Memory.readBytes_part {m : Memory} {a n : Nat} {bs : List Byte} (h : m.readBytes a n = some bs) {d k : Nat}
    (hk : d + k ≤ n) : m.readBytes (a + d) k = some ((bs.drop d).take k) := by
  obtain ⟨hl, hb⟩ := Memory.readBytes_eq_some.1 h
  refine Memory.readBytes_eq_some.2 ⟨by simp [hl]; omega, fun i hi => ?_⟩
  have hi' : d + i < bs.length := by simp only [List.length_take, List.length_drop] at hi; omega
  have := hb (d + i) hi'
  rw [show a + d + i = a + (d + i) by omega, this]
  simp

end Sys2Proof.Machine
end

