-- ==== Sys2Proof/Laws/State.lean ====
section
/-! SUPPORT. One lemma per field per update of the state, each true by rfl, so that no proof unfolds a record update; and what
the accessors read after an update. -/

namespace Sys2Proof.Machine

@[simp] theorem State.setRa_par (s : State) (k : Key) (e : RaEntry) : (s.setRa k e).par = s.par := rfl
@[simp] theorem State.setRa_cfg (s : State) (k : Key) (e : RaEntry) : (s.setRa k e).cfg = s.cfg := rfl
@[simp] theorem State.setRa_reg (s : State) (k : Key) (e : RaEntry) : (s.setRa k e).reg = s.reg := rfl
@[simp] theorem State.setRa_ack (s : State) (k : Key) (e : RaEntry) : (s.setRa k e).ack = s.ack := rfl
@[simp] theorem State.setRa_tx (s : State) (k : Key) (e : RaEntry) : (s.setRa k e).tx = s.tx := rfl
@[simp] theorem State.setRa_txb (s : State) (k : Key) (e : RaEntry) : (s.setRa k e).txb = s.txb := rfl
@[simp] theorem State.setRa_ra (s : State) (k : Key) (e : RaEntry) : (s.setRa k e).ra = s.ra.set k.toNat e k.isLt := rfl
@[simp] theorem State.setRa_rab (s : State) (k : Key) (e : RaEntry) : (s.setRa k e).rab = s.rab := rfl
@[simp] theorem State.setRa_trace (s : State) (k : Key) (e : RaEntry) : (s.setRa k e).trace = s.trace := rfl
@[simp] theorem State.setRa_fnOut (s : State) (k : Key) (e : RaEntry) : (s.setRa k e).fnOut = s.fnOut := rfl
@[simp] theorem State.setRa_freeCount (s : State) (k : Key) (e : RaEntry) : (s.setRa k e).freeCount = s.freeCount := rfl
@[simp] theorem State.setRa_env (s : State) (k : Key) (e : RaEntry) : (s.setRa k e).env = s.env := rfl
@[simp] theorem State.setRa_regAt (s : State) (k : Key) (e : RaEntry) (j : TypeId) : (s.setRa k e).regAt j = s.regAt j := rfl
@[simp] theorem State.setRa_rabAt (s : State) (k : Key) (e : RaEntry) (j : Key) : (s.setRa k e).rabAt j = s.rabAt j := rfl
@[simp] theorem State.setRa_ackPrio (s : State) (k : Key) (e : RaEntry) (p : Prio) : (s.setRa k e).ackPrio p = s.ackPrio p := rfl

@[simp] theorem State.dropEntry_par (s : State) (k : Key) : (s.dropEntry k).par = s.par := rfl
@[simp] theorem State.dropEntry_cfg (s : State) (k : Key) : (s.dropEntry k).cfg = s.cfg := rfl
@[simp] theorem State.dropEntry_reg (s : State) (k : Key) : (s.dropEntry k).reg = s.reg := rfl
@[simp] theorem State.dropEntry_ack (s : State) (k : Key) : (s.dropEntry k).ack = s.ack := rfl
@[simp] theorem State.dropEntry_tx (s : State) (k : Key) : (s.dropEntry k).tx = s.tx := rfl
@[simp] theorem State.dropEntry_txb (s : State) (k : Key) : (s.dropEntry k).txb = s.txb := rfl
@[simp] theorem State.dropEntry_ra (s : State) (k : Key) : (s.dropEntry k).ra = s.ra.set k.toNat { s.raAt k with valid := false } k.isLt := rfl
@[simp] theorem State.dropEntry_rab (s : State) (k : Key) : (s.dropEntry k).rab = s.rab := rfl
@[simp] theorem State.dropEntry_trace (s : State) (k : Key) : (s.dropEntry k).trace = s.trace := rfl
@[simp] theorem State.dropEntry_fnOut (s : State) (k : Key) : (s.dropEntry k).fnOut = s.fnOut := rfl
@[simp] theorem State.dropEntry_freeCount (s : State) (k : Key) : (s.dropEntry k).freeCount = s.freeCount := rfl
@[simp] theorem State.dropEntry_env (s : State) (k : Key) : (s.dropEntry k).env = s.env := rfl
@[simp] theorem State.dropEntry_regAt (s : State) (k : Key) (j : TypeId) : (s.dropEntry k).regAt j = s.regAt j := rfl
@[simp] theorem State.dropEntry_rabAt (s : State) (k : Key) (j : Key) : (s.dropEntry k).rabAt j = s.rabAt j := rfl
@[simp] theorem State.dropEntry_ackPrio (s : State) (k : Key) (p : Prio) : (s.dropEntry k).ackPrio p = s.ackPrio p := rfl

@[simp] theorem State.setReg_par (s : State) (t : TypeId) (e : RegEntry) : (s.setReg t e).par = s.par := rfl
@[simp] theorem State.setReg_cfg (s : State) (t : TypeId) (e : RegEntry) : (s.setReg t e).cfg = s.cfg := rfl
@[simp] theorem State.setReg_reg (s : State) (t : TypeId) (e : RegEntry) : (s.setReg t e).reg = s.reg.set t.toNat e t.isLt := rfl
@[simp] theorem State.setReg_ack (s : State) (t : TypeId) (e : RegEntry) : (s.setReg t e).ack = s.ack := rfl
@[simp] theorem State.setReg_tx (s : State) (t : TypeId) (e : RegEntry) : (s.setReg t e).tx = s.tx := rfl
@[simp] theorem State.setReg_txb (s : State) (t : TypeId) (e : RegEntry) : (s.setReg t e).txb = s.txb := rfl
@[simp] theorem State.setReg_ra (s : State) (t : TypeId) (e : RegEntry) : (s.setReg t e).ra = s.ra := rfl
@[simp] theorem State.setReg_rab (s : State) (t : TypeId) (e : RegEntry) : (s.setReg t e).rab = s.rab := rfl
@[simp] theorem State.setReg_trace (s : State) (t : TypeId) (e : RegEntry) : (s.setReg t e).trace = s.trace := rfl
@[simp] theorem State.setReg_fnOut (s : State) (t : TypeId) (e : RegEntry) : (s.setReg t e).fnOut = s.fnOut := rfl
@[simp] theorem State.setReg_freeCount (s : State) (t : TypeId) (e : RegEntry) : (s.setReg t e).freeCount = s.freeCount := rfl
@[simp] theorem State.setReg_env (s : State) (t : TypeId) (e : RegEntry) : (s.setReg t e).env = s.env := rfl
@[simp] theorem State.setReg_raAt (s : State) (t : TypeId) (e : RegEntry) (j : Key) : (s.setReg t e).raAt j = s.raAt j := rfl
@[simp] theorem State.setReg_ackPrio (s : State) (t : TypeId) (e : RegEntry) (p : Prio) : (s.setReg t e).ackPrio p = s.ackPrio p := rfl
@[simp] theorem State.setReg_rabAt (s : State) (t : TypeId) (e : RegEntry) (j : Key) : (s.setReg t e).rabAt j = s.rabAt j := rfl

@[simp] theorem State.setCfg_par (s : State) (c : Cfg) : (s.setCfg c).par = s.par := rfl
@[simp] theorem State.setCfg_cfg (s : State) (c : Cfg) : (s.setCfg c).cfg = c := rfl
@[simp] theorem State.setCfg_reg (s : State) (c : Cfg) : (s.setCfg c).reg = s.reg := rfl
@[simp] theorem State.setCfg_ack (s : State) (c : Cfg) : (s.setCfg c).ack = s.ack := rfl
@[simp] theorem State.setCfg_tx (s : State) (c : Cfg) : (s.setCfg c).tx = s.tx := rfl
@[simp] theorem State.setCfg_txb (s : State) (c : Cfg) : (s.setCfg c).txb = s.txb := rfl
@[simp] theorem State.setCfg_ra (s : State) (c : Cfg) : (s.setCfg c).ra = s.ra := rfl
@[simp] theorem State.setCfg_rab (s : State) (c : Cfg) : (s.setCfg c).rab = s.rab := rfl
@[simp] theorem State.setCfg_trace (s : State) (c : Cfg) : (s.setCfg c).trace = s.trace := rfl
@[simp] theorem State.setCfg_fnOut (s : State) (c : Cfg) : (s.setCfg c).fnOut = s.fnOut := rfl
@[simp] theorem State.setCfg_freeCount (s : State) (c : Cfg) : (s.setCfg c).freeCount = s.freeCount := rfl
@[simp] theorem State.setCfg_env (s : State) (c : Cfg) : (s.setCfg c).env = s.env := rfl
@[simp] theorem State.setCfg_raAt (s : State) (c : Cfg) (j : Key) : (s.setCfg c).raAt j = s.raAt j := rfl
@[simp] theorem State.setCfg_regAt (s : State) (c : Cfg) (j : TypeId) : (s.setCfg c).regAt j = s.regAt j := rfl
@[simp] theorem State.setCfg_rabAt (s : State) (c : Cfg) (j : Key) : (s.setCfg c).rabAt j = s.rabAt j := rfl
@[simp] theorem State.setCfg_ackPrio (s : State) (c : Cfg) (p : Prio) : (s.setCfg c).ackPrio p = s.ackPrio p := rfl

@[simp] theorem State.setAck_par (s : State) (a : AckSlot) : (s.setAck a).par = s.par := rfl
@[simp] theorem State.setAck_cfg (s : State) (a : AckSlot) : (s.setAck a).cfg = s.cfg := rfl
@[simp] theorem State.setAck_reg (s : State) (a : AckSlot) : (s.setAck a).reg = s.reg := rfl
@[simp] theorem State.setAck_ack (s : State) (a : AckSlot) : (s.setAck a).ack = a := rfl
@[simp] theorem State.setAck_tx (s : State) (a : AckSlot) : (s.setAck a).tx = s.tx := rfl
@[simp] theorem State.setAck_txb (s : State) (a : AckSlot) : (s.setAck a).txb = s.txb := rfl
@[simp] theorem State.setAck_ra (s : State) (a : AckSlot) : (s.setAck a).ra = s.ra := rfl
@[simp] theorem State.setAck_rab (s : State) (a : AckSlot) : (s.setAck a).rab = s.rab := rfl
@[simp] theorem State.setAck_trace (s : State) (a : AckSlot) : (s.setAck a).trace = s.trace := rfl
@[simp] theorem State.setAck_fnOut (s : State) (a : AckSlot) : (s.setAck a).fnOut = s.fnOut := rfl
@[simp] theorem State.setAck_freeCount (s : State) (a : AckSlot) : (s.setAck a).freeCount = s.freeCount := rfl
@[simp] theorem State.setAck_env (s : State) (a : AckSlot) : (s.setAck a).env = s.env := rfl
@[simp] theorem State.setAck_raAt (s : State) (a : AckSlot) (j : Key) : (s.setAck a).raAt j = s.raAt j := rfl
@[simp] theorem State.setAck_regAt (s : State) (a : AckSlot) (j : TypeId) : (s.setAck a).regAt j = s.regAt j := rfl
@[simp] theorem State.setAck_rabAt (s : State) (a : AckSlot) (j : Key) : (s.setAck a).rabAt j = s.rabAt j := rfl
@[simp] theorem State.setAck_ackPrio (s : State) (a : AckSlot) (p : Prio) : (s.setAck a).ackPrio p = s.ackPrio p := rfl

@[simp] theorem State.setTx_par (s : State) (t : Tx) : (s.setTx t).par = s.par := rfl
@[simp] theorem State.setTx_cfg (s : State) (t : Tx) : (s.setTx t).cfg = s.cfg := rfl
@[simp] theorem State.setTx_reg (s : State) (t : Tx) : (s.setTx t).reg = s.reg := rfl
@[simp] theorem State.setTx_ack (s : State) (t : Tx) : (s.setTx t).ack = s.ack := rfl
@[simp] theorem State.setTx_tx (s : State) (t : Tx) : (s.setTx t).tx = t := rfl
@[simp] theorem State.setTx_txb (s : State) (t : Tx) : (s.setTx t).txb = s.txb := rfl
@[simp] theorem State.setTx_ra (s : State) (t : Tx) : (s.setTx t).ra = s.ra := rfl
@[simp] theorem State.setTx_rab (s : State) (t : Tx) : (s.setTx t).rab = s.rab := rfl
@[simp] theorem State.setTx_trace (s : State) (t : Tx) : (s.setTx t).trace = s.trace := rfl
@[simp] theorem State.setTx_fnOut (s : State) (t : Tx) : (s.setTx t).fnOut = s.fnOut := rfl
@[simp] theorem State.setTx_freeCount (s : State) (t : Tx) : (s.setTx t).freeCount = s.freeCount := rfl
@[simp] theorem State.setTx_env (s : State) (t : Tx) : (s.setTx t).env = s.env := rfl
@[simp] theorem State.setTx_raAt (s : State) (t : Tx) (j : Key) : (s.setTx t).raAt j = s.raAt j := rfl
@[simp] theorem State.setTx_regAt (s : State) (t : Tx) (j : TypeId) : (s.setTx t).regAt j = s.regAt j := rfl
@[simp] theorem State.setTx_rabAt (s : State) (t : Tx) (j : Key) : (s.setTx t).rabAt j = s.rabAt j := rfl
@[simp] theorem State.setTx_ackPrio (s : State) (t : Tx) (p : Prio) : (s.setTx t).ackPrio p = s.ackPrio p := rfl

@[simp] theorem State.endSend_par (s : State) : (s.endSend).par = s.par := rfl
@[simp] theorem State.endSend_cfg (s : State) : (s.endSend).cfg = s.cfg := rfl
@[simp] theorem State.endSend_reg (s : State) : (s.endSend).reg = s.reg := rfl
@[simp] theorem State.endSend_ack (s : State) : (s.endSend).ack = s.ack := rfl
@[simp] theorem State.endSend_tx (s : State) : (s.endSend).tx = { s.tx with state := .idle } := rfl
@[simp] theorem State.endSend_txb (s : State) : (s.endSend).txb = s.txb := rfl
@[simp] theorem State.endSend_ra (s : State) : (s.endSend).ra = s.ra := rfl
@[simp] theorem State.endSend_rab (s : State) : (s.endSend).rab = s.rab := rfl
@[simp] theorem State.endSend_trace (s : State) : (s.endSend).trace = s.trace := rfl
@[simp] theorem State.endSend_fnOut (s : State) : (s.endSend).fnOut = s.fnOut := rfl
@[simp] theorem State.endSend_freeCount (s : State) : (s.endSend).freeCount = s.freeCount := rfl
@[simp] theorem State.endSend_env (s : State) : (s.endSend).env = s.env := rfl
@[simp] theorem State.endSend_raAt (s : State) (j : Key) : (s.endSend).raAt j = s.raAt j := rfl
@[simp] theorem State.endSend_regAt (s : State) (j : TypeId) : (s.endSend).regAt j = s.regAt j := rfl
@[simp] theorem State.endSend_rabAt (s : State) (j : Key) : (s.endSend).rabAt j = s.rabAt j := rfl
@[simp] theorem State.endSend_ackPrio (s : State) (p : Prio) : (s.endSend).ackPrio p = s.ackPrio p := rfl

@[simp] theorem State.setTxb_par (s : State) (m : Memory) : (s.setTxb m).par = s.par := rfl
@[simp] theorem State.setTxb_cfg (s : State) (m : Memory) : (s.setTxb m).cfg = s.cfg := rfl
@[simp] theorem State.setTxb_reg (s : State) (m : Memory) : (s.setTxb m).reg = s.reg := rfl
@[simp] theorem State.setTxb_ack (s : State) (m : Memory) : (s.setTxb m).ack = s.ack := rfl
@[simp] theorem State.setTxb_tx (s : State) (m : Memory) : (s.setTxb m).tx = s.tx := rfl
@[simp] theorem State.setTxb_txb (s : State) (m : Memory) : (s.setTxb m).txb = m := rfl
@[simp] theorem State.setTxb_ra (s : State) (m : Memory) : (s.setTxb m).ra = s.ra := rfl
@[simp] theorem State.setTxb_rab (s : State) (m : Memory) : (s.setTxb m).rab = s.rab := rfl
@[simp] theorem State.setTxb_trace (s : State) (m : Memory) : (s.setTxb m).trace = s.trace := rfl
@[simp] theorem State.setTxb_fnOut (s : State) (m : Memory) : (s.setTxb m).fnOut = s.fnOut := rfl
@[simp] theorem State.setTxb_freeCount (s : State) (m : Memory) : (s.setTxb m).freeCount = s.freeCount := rfl
@[simp] theorem State.setTxb_env (s : State) (m : Memory) : (s.setTxb m).env = s.env := rfl
@[simp] theorem State.setTxb_raAt (s : State) (m : Memory) (j : Key) : (s.setTxb m).raAt j = s.raAt j := rfl
@[simp] theorem State.setTxb_regAt (s : State) (m : Memory) (j : TypeId) : (s.setTxb m).regAt j = s.regAt j := rfl
@[simp] theorem State.setTxb_rabAt (s : State) (m : Memory) (j : Key) : (s.setTxb m).rabAt j = s.rabAt j := rfl
@[simp] theorem State.setTxb_ackPrio (s : State) (m : Memory) (p : Prio) : (s.setTxb m).ackPrio p = s.ackPrio p := rfl

@[simp] theorem State.setRab_par (s : State) (k : Key) (m : Memory) : (s.setRab k m).par = s.par := rfl
@[simp] theorem State.setRab_cfg (s : State) (k : Key) (m : Memory) : (s.setRab k m).cfg = s.cfg := rfl
@[simp] theorem State.setRab_reg (s : State) (k : Key) (m : Memory) : (s.setRab k m).reg = s.reg := rfl
@[simp] theorem State.setRab_ack (s : State) (k : Key) (m : Memory) : (s.setRab k m).ack = s.ack := rfl
@[simp] theorem State.setRab_tx (s : State) (k : Key) (m : Memory) : (s.setRab k m).tx = s.tx := rfl
@[simp] theorem State.setRab_txb (s : State) (k : Key) (m : Memory) : (s.setRab k m).txb = s.txb := rfl
@[simp] theorem State.setRab_ra (s : State) (k : Key) (m : Memory) : (s.setRab k m).ra = s.ra := rfl
@[simp] theorem State.setRab_rab (s : State) (k : Key) (m : Memory) : (s.setRab k m).rab = s.rab.set k.toNat m k.isLt := rfl
@[simp] theorem State.setRab_trace (s : State) (k : Key) (m : Memory) : (s.setRab k m).trace = s.trace := rfl
@[simp] theorem State.setRab_fnOut (s : State) (k : Key) (m : Memory) : (s.setRab k m).fnOut = s.fnOut := rfl
@[simp] theorem State.setRab_freeCount (s : State) (k : Key) (m : Memory) : (s.setRab k m).freeCount = s.freeCount := rfl
@[simp] theorem State.setRab_env (s : State) (k : Key) (m : Memory) : (s.setRab k m).env = s.env := rfl
@[simp] theorem State.setRab_raAt (s : State) (k : Key) (m : Memory) (j : Key) : (s.setRab k m).raAt j = s.raAt j := rfl
@[simp] theorem State.setRab_regAt (s : State) (k : Key) (m : Memory) (j : TypeId) : (s.setRab k m).regAt j = s.regAt j := rfl
@[simp] theorem State.setRab_ackPrio (s : State) (k : Key) (m : Memory) (p : Prio) : (s.setRab k m).ackPrio p = s.ackPrio p := rfl

@[simp] theorem State.setFnOut_par (s : State) (r : FnResult) : (s.setFnOut r).par = s.par := rfl
@[simp] theorem State.setFnOut_cfg (s : State) (r : FnResult) : (s.setFnOut r).cfg = s.cfg := rfl
@[simp] theorem State.setFnOut_reg (s : State) (r : FnResult) : (s.setFnOut r).reg = s.reg := rfl
@[simp] theorem State.setFnOut_ack (s : State) (r : FnResult) : (s.setFnOut r).ack = s.ack := rfl
@[simp] theorem State.setFnOut_tx (s : State) (r : FnResult) : (s.setFnOut r).tx = s.tx := rfl
@[simp] theorem State.setFnOut_txb (s : State) (r : FnResult) : (s.setFnOut r).txb = s.txb := rfl
@[simp] theorem State.setFnOut_ra (s : State) (r : FnResult) : (s.setFnOut r).ra = s.ra := rfl
@[simp] theorem State.setFnOut_rab (s : State) (r : FnResult) : (s.setFnOut r).rab = s.rab := rfl
@[simp] theorem State.setFnOut_trace (s : State) (r : FnResult) : (s.setFnOut r).trace = s.trace := rfl
@[simp] theorem State.setFnOut_fnOut (s : State) (r : FnResult) : (s.setFnOut r).fnOut = some r := rfl
@[simp] theorem State.setFnOut_freeCount (s : State) (r : FnResult) : (s.setFnOut r).freeCount = s.freeCount := rfl
@[simp] theorem State.setFnOut_env (s : State) (r : FnResult) : (s.setFnOut r).env = s.env := rfl
@[simp] theorem State.setFnOut_raAt (s : State) (r : FnResult) (j : Key) : (s.setFnOut r).raAt j = s.raAt j := rfl
@[simp] theorem State.setFnOut_regAt (s : State) (r : FnResult) (j : TypeId) : (s.setFnOut r).regAt j = s.regAt j := rfl
@[simp] theorem State.setFnOut_rabAt (s : State) (r : FnResult) (j : Key) : (s.setFnOut r).rabAt j = s.rabAt j := rfl
@[simp] theorem State.setFnOut_ackPrio (s : State) (r : FnResult) (p : Prio) : (s.setFnOut r).ackPrio p = s.ackPrio p := rfl

@[simp] theorem State.nextFree_par (s : State) : (s.nextFree).par = s.par := rfl
@[simp] theorem State.nextFree_cfg (s : State) : (s.nextFree).cfg = s.cfg := rfl
@[simp] theorem State.nextFree_reg (s : State) : (s.nextFree).reg = s.reg := rfl
@[simp] theorem State.nextFree_ack (s : State) : (s.nextFree).ack = s.ack := rfl
@[simp] theorem State.nextFree_tx (s : State) : (s.nextFree).tx = s.tx := rfl
@[simp] theorem State.nextFree_txb (s : State) : (s.nextFree).txb = s.txb := rfl
@[simp] theorem State.nextFree_ra (s : State) : (s.nextFree).ra = s.ra := rfl
@[simp] theorem State.nextFree_rab (s : State) : (s.nextFree).rab = s.rab := rfl
@[simp] theorem State.nextFree_trace (s : State) : (s.nextFree).trace = s.trace := rfl
@[simp] theorem State.nextFree_fnOut (s : State) : (s.nextFree).fnOut = s.fnOut := rfl
@[simp] theorem State.nextFree_freeCount (s : State) : (s.nextFree).freeCount = s.freeCount + 1 := rfl
@[simp] theorem State.nextFree_env (s : State) : (s.nextFree).env = s.env := rfl
@[simp] theorem State.nextFree_raAt (s : State) (j : Key) : (s.nextFree).raAt j = s.raAt j := rfl
@[simp] theorem State.nextFree_regAt (s : State) (j : TypeId) : (s.nextFree).regAt j = s.regAt j := rfl
@[simp] theorem State.nextFree_rabAt (s : State) (j : Key) : (s.nextFree).rabAt j = s.rabAt j := rfl
@[simp] theorem State.nextFree_ackPrio (s : State) (p : Prio) : (s.nextFree).ackPrio p = s.ackPrio p := rfl

@[simp] theorem State.setEnv_par (s : State) (e : Env) : (s.setEnv e).par = s.par := rfl
@[simp] theorem State.setEnv_cfg (s : State) (e : Env) : (s.setEnv e).cfg = s.cfg := rfl
@[simp] theorem State.setEnv_reg (s : State) (e : Env) : (s.setEnv e).reg = s.reg := rfl
@[simp] theorem State.setEnv_ack (s : State) (e : Env) : (s.setEnv e).ack = s.ack := rfl
@[simp] theorem State.setEnv_tx (s : State) (e : Env) : (s.setEnv e).tx = s.tx := rfl
@[simp] theorem State.setEnv_txb (s : State) (e : Env) : (s.setEnv e).txb = s.txb := rfl
@[simp] theorem State.setEnv_ra (s : State) (e : Env) : (s.setEnv e).ra = s.ra := rfl
@[simp] theorem State.setEnv_rab (s : State) (e : Env) : (s.setEnv e).rab = s.rab := rfl
@[simp] theorem State.setEnv_trace (s : State) (e : Env) : (s.setEnv e).trace = s.trace := rfl
@[simp] theorem State.setEnv_fnOut (s : State) (e : Env) : (s.setEnv e).fnOut = s.fnOut := rfl
@[simp] theorem State.setEnv_freeCount (s : State) (e : Env) : (s.setEnv e).freeCount = s.freeCount := rfl
@[simp] theorem State.setEnv_env (s : State) (e : Env) : (s.setEnv e).env = e := rfl
@[simp] theorem State.setEnv_raAt (s : State) (e : Env) (j : Key) : (s.setEnv e).raAt j = s.raAt j := rfl
@[simp] theorem State.setEnv_regAt (s : State) (e : Env) (j : TypeId) : (s.setEnv e).regAt j = s.regAt j := rfl
@[simp] theorem State.setEnv_rabAt (s : State) (e : Env) (j : Key) : (s.setEnv e).rabAt j = s.rabAt j := rfl
@[simp] theorem State.setEnv_ackPrio (s : State) (e : Env) (p : Prio) : (s.setEnv e).ackPrio p = s.ackPrio p := rfl

@[simp] theorem State.emit_par (s : State) (e : Event) : (s.emit e).par = s.par := rfl
@[simp] theorem State.emit_cfg (s : State) (e : Event) : (s.emit e).cfg = s.cfg := rfl
@[simp] theorem State.emit_reg (s : State) (e : Event) : (s.emit e).reg = s.reg := rfl
@[simp] theorem State.emit_ack (s : State) (e : Event) : (s.emit e).ack = s.ack := rfl
@[simp] theorem State.emit_tx (s : State) (e : Event) : (s.emit e).tx = s.tx := rfl
@[simp] theorem State.emit_txb (s : State) (e : Event) : (s.emit e).txb = s.txb := rfl
@[simp] theorem State.emit_ra (s : State) (e : Event) : (s.emit e).ra = s.ra := rfl
@[simp] theorem State.emit_rab (s : State) (e : Event) : (s.emit e).rab = s.rab := rfl
@[simp] theorem State.emit_trace (s : State) (e : Event) : (s.emit e).trace = s.trace ++ [e] := rfl
@[simp] theorem State.emit_fnOut (s : State) (e : Event) : (s.emit e).fnOut = s.fnOut := rfl
@[simp] theorem State.emit_freeCount (s : State) (e : Event) : (s.emit e).freeCount = s.freeCount := rfl
@[simp] theorem State.emit_env (s : State) (e : Event) : (s.emit e).env = s.env := rfl
@[simp] theorem State.emit_raAt (s : State) (e : Event) (j : Key) : (s.emit e).raAt j = s.raAt j := rfl
@[simp] theorem State.emit_regAt (s : State) (e : Event) (j : TypeId) : (s.emit e).regAt j = s.regAt j := rfl
@[simp] theorem State.emit_rabAt (s : State) (e : Event) (j : Key) : (s.emit e).rabAt j = s.rabAt j := rfl
@[simp] theorem State.emit_ackPrio (s : State) (e : Event) (p : Prio) : (s.emit e).ackPrio p = s.ackPrio p := rfl

/-- RA[j] after RA[k] is written. -/
theorem State.raAt_setRa (s : State) (k j : Key) (e : RaEntry) : (s.setRa k e).raAt j = if k = j then e else s.raAt j := by
  simp only [State.raAt, State.setRa, Vector.getElem_set, BitVec.toNat_inj]

@[simp] theorem State.raAt_setRa_self (s : State) (k : Key) (e : RaEntry) : (s.setRa k e).raAt k = e := by
  simp [State.raAt_setRa]

theorem State.raAt_setRa_of_ne (s : State) {k j : Key} (e : RaEntry) (h : k ≠ j) : (s.setRa k e).raAt j = s.raAt j := by
  simp [State.raAt_setRa, h]

/-- RA[j] after entry k is removed. -/
theorem State.raAt_dropEntry (s : State) (k j : Key) :
    (s.dropEntry k).raAt j = if k = j then { s.raAt k with valid := false } else s.raAt j :=
  s.raAt_setRa k j _

@[simp] theorem State.raAt_dropEntry_self (s : State) (k : Key) :
    (s.dropEntry k).raAt k = { s.raAt k with valid := false } := by
  simp [State.raAt_dropEntry]

/-- RAB[j] after RAB[k] is written. -/
theorem State.rabAt_setRab (s : State) (k j : Key) (m : Memory) : (s.setRab k m).rabAt j = if k = j then m else s.rabAt j := by
  simp only [State.rabAt, State.setRab, Vector.getElem_set, BitVec.toNat_inj]

@[simp] theorem State.rabAt_setRab_self (s : State) (k : Key) (m : Memory) : (s.setRab k m).rabAt k = m := by
  simp [State.rabAt_setRab]

theorem State.rabAt_setRab_of_ne {k j : Key} (s : State) (m : Memory) (h : k ≠ j) : (s.setRab k m).rabAt j = s.rabAt j := by
  rw [State.rabAt_setRab, if_neg h]

/-- REG[j] after REG[t] is written. -/
theorem State.regAt_setReg (s : State) (t j : TypeId) (e : RegEntry) :
    (s.setReg t e).regAt j = if t = j then e else s.regAt j := by
  simp only [State.regAt, State.setReg, Vector.getElem_set, BitVec.toNat_inj]

@[simp] theorem State.regAt_setReg_self (s : State) (t : TypeId) (e : RegEntry) : (s.setReg t e).regAt t = e := by
  simp [State.regAt_setReg]

/-- After reset no reassembly entry is valid (R215). -/
@[simp] theorem State.afterReset_raAt_valid (p : Params) (n : Nat) (k : Key) : ((State.afterReset p n).raAt k).valid = false := by
  simp [State.raAt, State.afterReset]

/-- After reset nothing is written in RAB (R215). -/
@[simp] theorem State.afterReset_rabAt (p : Params) (n : Nat) (k : Key) : (State.afterReset p n).rabAt k = [] := by
  simp [State.rabAt, State.afterReset]

/-- After reset no handler is registered (R215). -/
@[simp] theorem State.afterReset_regAt_valid (p : Params) (n : Nat) (t : TypeId) : ((State.afterReset p n).regAt t).valid = false := by
  simp [State.regAt, State.afterReset]

end Sys2Proof.Machine
end

