-- ==== Sys2Proof/Laws/Ops.lean ====
section
/-! SUPPORT. One lemma for each shared operation that says once everything it can do. -/

namespace Sys2Proof.Machine

@[simp] theorem outcome_ok (s : State) : outcome (.ok s) = .next s := rfl

@[simp] theorem outcome_error (f : Fault) : outcome (.error f) = .fault f := rfl

/-- A count below 2^16 is held exactly. -/
theorem toLen_toNat {n : Nat} (h : n < 2 ^ 16) : (toLen n).toNat = n := by
  simp only [toLen, BitVec.toNat_ofNat]; exact Nat.mod_eq_of_lt h

/-- Within RA_CAP, or RA_CAP = ∞ (R127). -/
theorem withinCap_iff (s : State) (n : Nat) : withinCap s n = true ↔ ∀ c ∈ s.par.raCap, n ≤ c := by
  rw [withinCap]; cases s.par.raCap <;> simp

/-- A write to RAB answers a state exactly when it stays within RA_CAP, and then changes RAB[k] alone. -/
theorem rabWrite_ok {s t : State} {k : Key} {off : Nat} {bs : List Byte} :
    rabWrite s k off bs = .ok t ↔
      withinCap s (off + bs.length) = true ∧ t = s.setRab k ((s.rabAt k).writeBytes off bs) := by
  rw [rabWrite]; split
  · rename_i h; simp [h, eq_comm]
  · rename_i h; simp [h]

theorem rabWrite_fits {s : State} {k : Key} {off : Nat} {bs : List Byte} (h : ∀ c ∈ s.par.raCap, off + bs.length ≤ c) :
    rabWrite s k off bs = .ok (s.setRab k ((s.rabAt k).writeBytes off bs)) := if_pos ((withinCap_iff _ _).2 h)

theorem rabWrite_error {s : State} {k : Key} {off : Nat} {bs : List Byte} {f : Fault} (h : rabWrite s k off bs = .error f) :
    withinCap s (off + bs.length) = false ∧ f = .bufferOverrun := by
  rw [rabWrite] at h; split at h <;> simp_all

/-- A write to TXB answers a state exactly when it stays within TX_CAP + 1 bytes, and then changes TXB alone. -/
theorem txbWrite_ok {s t : State} {bs : List Byte} :
    txbWrite s bs = .ok t ↔ bs.length ≤ s.par.txCap + 1 ∧ t = s.setTxb (s.txb.writeBytes 0 bs) := by
  rw [txbWrite]; split <;> simp_all [eq_comm]

theorem txbWrite_fits {s : State} {bs : List Byte} (h : bs.length ≤ s.par.txCap + 1) :
    txbWrite s bs = .ok (s.setTxb (s.txb.writeBytes 0 bs)) := if_pos h

/-- LOOKUP does one of three things (R125). -/
theorem lookup_cases (s : State) (k : Key) (now : Time) :
    ((s.raAt k).valid = false ∧ lookup s k now = (.absent, s)) ∨
    ((s.raAt k).valid = true ∧ isExpired now (s.raAt k).ts = true ∧ lookup s k now = (.expired, s.dropEntry k)) ∨
    ((s.raAt k).valid = true ∧ isExpired now (s.raAt k).ts = false ∧ lookup s k now = (.live, s)) := by
  rw [lookup]
  cases (s.raAt k).valid <;> cases isExpired now (s.raAt k).ts <;> simp

/-- DISPATCH emits one DELIVER or nothing (R172). -/
theorem dispatch_cases (s : State) (t : TypeId) (bytes : List Byte) :
    (dispatchPasses s t bytes = true ∧ dispatch s t bytes = s.emit (.deliver t bytes)) ∨
    (dispatchPasses s t bytes = false ∧ dispatch s t bytes = s) := by
  rw [dispatch]; cases dispatchPasses s t bytes <;> simp

/-- The validator has no answer for the empty sequence, which R112 excludes. -/
theorem cksumOk_nil : cksumOk [] = none := rfl

/-- The validator on a body and its last byte (R112). -/
theorem cksumOk_append (body : List Byte) (c : Byte) : cksumOk (body ++ [c]) = some (crc8 body == c, body) := by
  simp [cksumOk]

/-- Raising a failure changes TX.state and the trace alone. -/
theorem raise_cases (x : SendFailure) (s : State) :
    (x = .failTransport ∧ raise x s = s.endSend.emit (.done .failTransport)) ∨
    (x = .failNoack ∧ raise x s = (s.endSend.emit (.err s.tx.typ s.tx.addr)).emit (.done .failNoack)) ∨
    (x = .rejected ∧ raise x s = s.emit (.done .rejected)) := by
  cases x <;> simp [raise]

/-- The checksum of a sequence with one more byte at its end (R111). -/
theorem crc8_append (bs : List Byte) (b : Byte) : crc8 (bs ++ [b]) = crc8Step (crc8 bs) b := by
  simp [crc8]

/-- The length of the stream of a message (R28). -/
theorem stream_length (m : List Byte) : (stream m).length = if isMulti m then m.length + 1 else m.length := by
  rw [stream]; split <;> simp

/-- Whether a message is multi-frame (R141). -/
theorem isMulti_iff (m : List Byte) : isMulti m = true ↔ 8 < m.length := by
  rw [isMulti, decide_eq_true_iff]; rfl

/-- Concatenation as a number. -/
theorem toNat_append {v w : Nat} (x : BitVec v) (y : BitVec w) : (x ++ y).toNat = x.toNat * 2 ^ w + y.toNat := by
  rw [BitVec.toNat_append, ← Nat.shiftLeft_add_eq_or_of_lt y.isLt, Nat.shiftLeft_eq]

/-- A slice as a number. -/
theorem toNat_slice {w : Nat} (x : BitVec w) (lo len : Nat) : (x.extractLsb' lo len).toNat = x.toNat / 2 ^ lo % 2 ^ len := by
  rw [BitVec.extractLsb'_toNat, Nat.shiftRight_eq_div_pow]

/-- A packed identifier as a number: priority·512 + address·32 + sequence·8 + type (R81). -/
theorem packId_toNat (p : Prio) (a : Addr) (sq : SeqTag) (t : TypeId) :
    (packId p a sq t).toNat = p.toNat * 512 + a.toNat * 32 + sq.toNat * 8 + t.toNat := by
  rw [packId, toNat_append, toNat_append, toNat_append]; omega

/-- The key index as a number (R103). -/
theorem kidx_toNat (id : Ident) : (kidx id).toNat = id.toNat / 32 * 8 + id.toNat % 8 := by
  rw [kidx, toNat_append, toNat_slice, toNat_slice]; have := id.isLt; omega

/-- Decoding a packed identifier gives its fields back (R104). -/
theorem dec_packId (p : Prio) (a : Addr) (sq : SeqTag) (t : TypeId) : dec (packId p a sq t) = ⟨p, a, sq, t⟩ := by
  have := p.isLt; have := a.isLt; have := sq.isLt; have := t.isLt
  simp only [dec, Fields.mk.injEq]
  refine ⟨?_, ?_, ?_, ?_⟩ <;> apply BitVec.eq_of_toNat_eq <;> rw [toNat_slice, packId_toNat] <;> omega

/-- Packing the fields of an identifier gives it back (R104). -/
theorem packId_dec (id : Ident) : packId (dec id).prio (dec id).addr (dec id).seq (dec id).typ = id := by
  apply BitVec.eq_of_toNat_eq
  rw [packId_toNat]; simp only [dec, toNat_slice]; have := id.isLt; omega

/-- The key index of a packed identifier does not depend on its sequence tag (R103). -/
theorem kidx_packId (p : Prio) (a : Addr) (sq sq' : SeqTag) (t : TypeId) :
    kidx (packId p a sq t) = kidx (packId p a sq' t) := by
  have := sq.isLt; have := sq'.isLt; have := t.isLt
  apply BitVec.eq_of_toNat_eq; rw [kidx_toNat, kidx_toNat, packId_toNat, packId_toNat]; omega

end Sys2Proof.Machine
end

