-- ==== Sys2Proof/Laws/Flags.lean ====
section
/-! SUPPORT. The one-bit conditions as facts about numbers, each with the edge of spec/45_arithmetic_control_access.md R178, and
what MemRead gives after an update that is not a write to its memory. -/

namespace Sys2Proof.Machine

/-- More than 500 time units (R126). -/
theorem isExpired_iff (now ts : Time) : isExpired now ts = true ↔ 500 < (now - ts).toNat := by
  rw [isExpired, decide_eq_true_iff]; rfl

/-- Up to and including 500 time units (R126). -/
theorem isExpired_eq_false_iff (now ts : Time) : isExpired now ts = false ↔ (now - ts).toNat ≤ 500 := by
  rw [← Bool.not_eq_true, isExpired_iff, Nat.not_lt]

/-- At least 100 time units (R152). -/
theorem ackTimedOut_iff (now start : Time) : ackTimedOut now start = true ↔ 100 ≤ (now - start).toNat := by
  rw [ackTimedOut, decide_eq_true_iff]; rfl

/-- Within RA_CAP (R127). -/
theorem wouldOverflow_eq_false_iff (s : State) (k : Key) (n : Nat) :
    wouldOverflow s k n = false ↔ ∀ c ∈ s.par.raCap, (s.raAt k).len + n ≤ c := by
  rw [wouldOverflow, Bool.not_eq_false', withinCap_iff]

/-- Longer than RA_CAP (R127). -/
theorem wouldOverflow_iff (s : State) (k : Key) (n : Nat) :
    wouldOverflow s k n = true ↔ ∃ c ∈ s.par.raCap, c < (s.raAt k).len + n := by
  rw [← Bool.not_eq_false, wouldOverflow_eq_false_iff]
  simp only [not_forall, Nat.not_le, exists_prop]

/-- The engine is busy (R35). -/
theorem txBusy_eq_false_iff (s : State) : txBusy s = false ↔ s.tx.state = .idle := by simp [txBusy]

/-- A SEND passes (R142). -/
theorem sendRejected_eq_false_iff (s : State) (t : TypeId) (m : List Byte) :
    sendRejected s t m = false ↔ t ≠ 7 ∧ m.length ≤ s.par.txCap := by
  rw [sendRejected, Bool.or_eq_false_iff, decide_eq_false_iff_not, decide_eq_false_iff_not, Nat.not_lt]; rfl

/-- Retry-mode (R21). -/
theorem retryMode_iff (s : State) : retryMode s = true ↔ 0 < s.cfg.retryLimit.toNat := by rw [retryMode, decide_eq_true_iff]

/-- A retransmission is left (R153). -/
theorem retryAllowed_iff (s : State) : retryAllowed s = true ↔ s.tx.retries.toNat < s.cfg.retryLimit.toNat := by
  rw [retryAllowed, decide_eq_true_iff]

/-- More fragments follow (R146). -/
theorem moreFragments_iff (tx : Tx) : moreFragments tx = true ↔ tx.idx.toNat + 1 < tx.nfrag.toNat := by
  rw [moreFragments, decide_eq_true_iff]; omega

/-- A live entry, for LOOKUP (R125). -/
theorem lookup_live {s : State} {k : Key} {now : Time} (hv : (s.raAt k).valid = true)
    (he : (now - (s.raAt k).ts).toNat ≤ 500) : lookup s k now = (.live, s) := by
  rcases lookup_cases s k now with ⟨h, _⟩ | ⟨_, h, _⟩ | ⟨_, _, h⟩
  · simp [hv] at h
  · rw [(isExpired_eq_false_iff _ _).2 he] at h; cases h
  · exact h

@[simp] theorem rabRead_setRa (s : State) (k : Key) (e : RaEntry) (j : Key) (x n : Nat) : rabRead (s.setRa k e) j x n = rabRead s j x n := rfl
@[simp] theorem txbRead_setRa (s : State) (k : Key) (e : RaEntry) (x n : Nat) : txbRead (s.setRa k e) x n = txbRead s x n := rfl
@[simp] theorem rabRead_dropEntry (s : State) (k : Key) (j : Key) (x n : Nat) : rabRead (s.dropEntry k) j x n = rabRead s j x n := rfl
@[simp] theorem txbRead_dropEntry (s : State) (k : Key) (x n : Nat) : txbRead (s.dropEntry k) x n = txbRead s x n := rfl
@[simp] theorem rabRead_setReg (s : State) (t : TypeId) (e : RegEntry) (j : Key) (x n : Nat) : rabRead (s.setReg t e) j x n = rabRead s j x n := rfl
@[simp] theorem txbRead_setReg (s : State) (t : TypeId) (e : RegEntry) (x n : Nat) : txbRead (s.setReg t e) x n = txbRead s x n := rfl
@[simp] theorem rabRead_setCfg (s : State) (c : Cfg) (j : Key) (x n : Nat) : rabRead (s.setCfg c) j x n = rabRead s j x n := rfl
@[simp] theorem txbRead_setCfg (s : State) (c : Cfg) (x n : Nat) : txbRead (s.setCfg c) x n = txbRead s x n := rfl
@[simp] theorem rabRead_setAck (s : State) (a : AckSlot) (j : Key) (x n : Nat) : rabRead (s.setAck a) j x n = rabRead s j x n := rfl
@[simp] theorem txbRead_setAck (s : State) (a : AckSlot) (x n : Nat) : txbRead (s.setAck a) x n = txbRead s x n := rfl
@[simp] theorem rabRead_setTx (s : State) (t : Tx) (j : Key) (x n : Nat) : rabRead (s.setTx t) j x n = rabRead s j x n := rfl
@[simp] theorem txbRead_setTx (s : State) (t : Tx) (x n : Nat) : txbRead (s.setTx t) x n = txbRead s x n := rfl
@[simp] theorem rabRead_endSend (s : State) (j : Key) (x n : Nat) : rabRead (s.endSend) j x n = rabRead s j x n := rfl
@[simp] theorem txbRead_endSend (s : State) (x n : Nat) : txbRead (s.endSend) x n = txbRead s x n := rfl
@[simp] theorem rabRead_setTxb (s : State) (m : Memory) (j : Key) (x n : Nat) : rabRead (s.setTxb m) j x n = rabRead s j x n := rfl
@[simp] theorem txbRead_setRab (s : State) (k : Key) (m : Memory) (x n : Nat) : txbRead (s.setRab k m) x n = txbRead s x n := rfl
@[simp] theorem rabRead_setFnOut (s : State) (r : FnResult) (j : Key) (x n : Nat) : rabRead (s.setFnOut r) j x n = rabRead s j x n := rfl
@[simp] theorem txbRead_setFnOut (s : State) (r : FnResult) (x n : Nat) : txbRead (s.setFnOut r) x n = txbRead s x n := rfl
@[simp] theorem rabRead_nextFree (s : State) (j : Key) (x n : Nat) : rabRead (s.nextFree) j x n = rabRead s j x n := rfl
@[simp] theorem txbRead_nextFree (s : State) (x n : Nat) : txbRead (s.nextFree) x n = txbRead s x n := rfl
@[simp] theorem rabRead_setEnv (s : State) (e : Env) (j : Key) (x n : Nat) : rabRead (s.setEnv e) j x n = rabRead s j x n := rfl
@[simp] theorem txbRead_setEnv (s : State) (e : Env) (x n : Nat) : txbRead (s.setEnv e) x n = txbRead s x n := rfl
@[simp] theorem rabRead_emit (s : State) (e : Event) (j : Key) (x n : Nat) : rabRead (s.emit e) j x n = rabRead s j x n := rfl
@[simp] theorem txbRead_emit (s : State) (e : Event) (x n : Nat) : txbRead (s.emit e) x n = txbRead s x n := rfl

/-- MemRead of a buffer after MemWrite of that buffer. -/
@[simp] theorem rabRead_setRab (s : State) (k : Key) (m : Memory) (x n : Nat) :
    rabRead (s.setRab k m) k x n = m.readBytes x n := by rw [rabRead, State.rabAt_setRab_self]

/-- A write to one buffer leaves the others alone (R129). -/
theorem rabRead_setRab_other {k j : Key} (s : State) (m : Memory) (x n : Nat) (h : k ≠ j) :
    rabRead (s.setRab k m) j x n = rabRead s j x n := by rw [rabRead, State.rabAt_setRab_of_ne s m h]; rfl

/-- MemRead of TXB after MemWrite of TXB. -/
@[simp] theorem txbRead_setTxb (s : State) (m : Memory) (x n : Nat) : txbRead (s.setTxb m) x n = m.readBytes x n := rfl

/-- An append to a buffer, read as a whole (R123, R124). -/
theorem rabRead_append {s : State} {k : Key} {n : Nat} {acc : List Byte} (h : rabRead s k 0 n = some acc) (bs : List Byte) :
    ((s.rabAt k).writeBytes n bs).readBytes 0 (n + bs.length) = some (acc ++ bs) := by
  have := Memory.readBytes_append_writeBytes h bs
  rwa [Nat.zero_add] at this

end Sys2Proof.Machine
end

