-- ==== Sys2Proof/Laws/PerInstr.lean ====
section
/-! SUPPORT. What holds of each operation as syntax: the packet of a well-formed operation carries the bits that its row of
spec/opcode_table.json fixes, and an operation has no packet exactly when its row has no port (FRAG and the INTERNAL rows). -/

namespace Sys2Proof.Laws.TableRow

open Sys2Proof

/-- A row of the opcode table: the port of its format, the bits it fixes (lowest bit, width, value), and whether the row is
reached only with a type field other than 7 (its note "type != 7"). -/
structure Row where
  port : Port
  fixed : Option (Nat × Nat × Nat)
  dataFrame : Bool
deriving DecidableEq, Repr

/-- The row of an operation; `none` for a row whose format is no hardware port. The rows of the data frames fix the block's own
sequence codes, which the table writes with their defaults. -/
def row (par : Params) : Instr → Option Row
  | .rxAck _ _ _ _ _ => some ⟨.rx, some (0, 3, 7), false⟩
  | .rxStart _ _ _ _ _ => some ⟨.rx, some (3, 2, par.seqStart.toNat), true⟩
  | .rxMiddle _ _ _ _ _ => some ⟨.rx, some (3, 2, par.seqMiddle.toNat), true⟩
  | .rxEnd _ _ _ _ _ => some ⟨.rx, some (3, 2, par.seqEnd.toNat), true⟩
  | .rxSingle _ _ _ _ _ => some ⟨.rx, some (3, 2, par.seqSingle.toNat), true⟩
  | .nop => some ⟨.cmd, some (0, 3, 0), false⟩
  | .cfgRetry _ => some ⟨.cmd, some (0, 3, 1), false⟩
  | .reg _ _ => some ⟨.cmd, some (0, 3, 2), false⟩
  | .send _ _ _ _ => some ⟨.cmd, some (0, 3, 3), false⟩
  | .reset => some ⟨.cmd, some (0, 3, 4), false⟩
  | .cmdReserved5 => some ⟨.cmd, some (0, 3, 5), false⟩
  | .cmdReserved6 => some ⟨.cmd, some (0, 3, 6), false⟩
  | .cmdReserved7 => some ⟨.cmd, some (0, 3, 7), false⟩
  | .txIdle => some ⟨.txe, some (0, 2, 0), false⟩
  | .txFrag _ _ => some ⟨.txe, some (0, 2, 1), false⟩
  | .txWait _ => some ⟨.txe, some (0, 2, 2), false⟩
  | .txStateReserved3 => some ⟨.txe, some (0, 2, 3), false⟩
  | .enc _ _ _ _ => some ⟨.fn .enc, none, false⟩
  | .dec _ => some ⟨.fn .dec, none, false⟩
  | .rkey _ => some ⟨.fn .rkey, none, false⟩
  | .kidx _ => some ⟨.fn .kidx, none, false⟩
  | .crc8Step _ _ => some ⟨.fn .crc8Step, none, false⟩
  | .crc8 _ => some ⟨.fn .crc8, none, false⟩
  | .frag _ _ _ _ => none
  | .cksumOk _ => none
  | .expired _ _ => none
  | .lookup _ _ => none
  | .dispatch _ _ => none
  | .ackEmit _ _ _ => none

/-- The selecting word of a packet: the identifier of an inbound frame, the op code of a command, TX.state of a step. -/
def selecting (pkt : Packet) : Nat :=
  match pkt.port, pkt.bytes with
  | .rx, lo :: hi :: _ => lo.toNat + 256 * hi.toNat
  | .cmd, b :: _ => b.toNat
  | .txe, b :: _ => b.toNat
  | _, _ => 0

/-- A packet meets a row. -/
def meets (pkt : Packet) (r : Row) : Prop :=
  pkt.port = r.port ∧ (∀ lo width value, r.fixed = some (lo, width, value) → selecting pkt / 2 ^ lo % 2 ^ width = value) ∧
    (r.dataFrame = true → selecting pkt % 8 ≠ 7)

/-- For every choice of the parameters: the packet of a well-formed operation meets its row, and there is a packet exactly where
there is a row. -/
def Statement (i : Instr) : Prop :=
  ∀ par : Params, i.WellFormed →
    (∀ pkt r, encode par i = some pkt → row par i = some r → meets pkt r) ∧ (encode par i = none ↔ row par i = none)

/-- The selecting word of an inbound frame's packet is its identifier. -/
theorem selecting_rx (id : Ident) (data : List Byte) :
    selecting { port := .rx, bytes := encodeFrame { id := id, data := data } } = id.toNat := by
  have h := id.isLt
  simp only [encodeFrame, pairBytes, List.cons_append, selecting, Machine.toNat_slice, BitVec.toNat_setWidth]
  omega

/-- An operation whose packet and row are those given. -/
theorem of_packet {i : Instr} {pkt : Params → Packet} {r : Params → Row} (he : ∀ par, encode par i = some (pkt par))
    (hr : ∀ par, row par i = some (r par)) (h : ∀ par, i.WellFormed → meets (pkt par) (r par)) : Statement i := by
  intro par hw
  refine ⟨fun pkt' r' he' hr' => ?_, by simp [he, hr]⟩
  rw [he] at he'; rw [hr] at hr'; cases he'; cases hr'; exact h par hw

/-- An operation that no port presents. -/
theorem of_none {i : Instr} (he : ∀ par, encode par i = none) (hr : ∀ par, row par i = none) : Statement i := by
  intro par _
  exact ⟨fun pkt r he' => by simp [he] at he', by simp [he, hr]⟩

/-- A row that fixes nothing. -/
theorem meets_port {pkt : Packet} {p : Port} (h : pkt.port = p) : meets pkt ⟨p, none, false⟩ :=
  ⟨h, by simp, by simp⟩

/-- A row that fixes one field of a packet whose selecting word is a number. -/
theorem meets_field {pkt : Packet} {p : Port} {lo width value : Nat} (h : pkt.port = p)
    (hs : selecting pkt / 2 ^ lo % 2 ^ width = value) : meets pkt ⟨p, some (lo, width, value), false⟩ := by
  refine ⟨h, fun a b c e => ?_, by simp⟩
  simp only [Option.some.injEq, Prod.mk.injEq] at e
  obtain ⟨rfl, rfl, rfl⟩ := e
  exact hs

/-- A data frame meets the row of its sequence tag. -/
theorem meets_data {p : Prio} {a : Addr} {sq : SeqTag} {t : TypeId} {data : List Byte} (ht : t ≠ Config.ackType) :
    meets { port := .rx, bytes := encodeFrame { id := Machine.packId p a sq t, data := data } }
      ⟨.rx, some (3, 2, sq.toNat), true⟩ := by
  have h7 : t.toNat ≠ 7 := fun h => ht (BitVec.eq_of_toNat_eq (by simpa [Config.ackType] using h))
  have := sq.isLt
  have := t.isLt
  refine ⟨rfl, fun a b c e => ?_, fun _ => ?_⟩
  · simp only [Option.some.injEq, Prod.mk.injEq] at e
    obtain ⟨rfl, rfl, rfl⟩ := e
    rw [selecting_rx, Machine.packId_toNat]; omega
  · rw [selecting_rx, Machine.packId_toNat]; omega

/-- What well-formedness says of a data frame's type. -/
theorem typ_of_wf {t : TypeId} {b : Bool} (h : (decide (t ≠ Config.ackType) && b) = true) : t ≠ Config.ackType :=
  of_decide_eq_true (Bool.and_eq_true_iff.1 h).1

theorem rxAck (p : Prio) (a : Addr) (sq : SeqTag) (data : List Byte) (now : Time) : Statement (.rxAck p a sq data now) :=
  of_packet (fun _ => rfl) (fun _ => rfl) fun _ _ => meets_field rfl (by
    rw [selecting_rx, Machine.packId_toNat]
    have : Config.ackType.toNat = 7 := rfl
    omega)

theorem rxStart (p : Prio) (a : Addr) (t : TypeId) (data : List Byte) (now : Time) : Statement (.rxStart p a t data now) :=
  of_packet (fun _ => rfl) (fun _ => rfl) fun par h => meets_data (sq := par.seqStart) (typ_of_wf h)

theorem rxMiddle (p : Prio) (a : Addr) (t : TypeId) (data : List Byte) (now : Time) : Statement (.rxMiddle p a t data now) :=
  of_packet (fun _ => rfl) (fun _ => rfl) fun par h => meets_data (sq := par.seqMiddle) (typ_of_wf h)

theorem rxEnd (p : Prio) (a : Addr) (t : TypeId) (data : List Byte) (now : Time) : Statement (.rxEnd p a t data now) :=
  of_packet (fun _ => rfl) (fun _ => rfl) fun par h => meets_data (sq := par.seqEnd) (typ_of_wf h)

theorem rxSingle (p : Prio) (a : Addr) (t : TypeId) (data : List Byte) (now : Time) : Statement (.rxSingle p a t data now) :=
  of_packet (fun _ => rfl) (fun _ => rfl) fun par h => meets_data (sq := par.seqSingle) (typ_of_wf h)

theorem nop : Statement .nop := of_packet (fun _ => rfl) (fun _ => rfl) fun _ _ => meets_field rfl rfl

theorem cfgRetry (limit : Retry) : Statement (.cfgRetry limit) :=
  of_packet (fun _ => rfl) (fun _ => rfl) fun _ _ => meets_field rfl (by simp [selecting])

theorem reg (t : TypeId) (size : Len) : Statement (.reg t size) :=
  of_packet (fun _ => rfl) (fun _ => rfl) fun _ _ => meets_field rfl (by simp [selecting])

theorem send (p : Prio) (a : Addr) (t : TypeId) (m : List Byte) : Statement (.send p a t m) :=
  of_packet (fun _ => rfl) (fun _ => rfl) fun _ _ => meets_field rfl (by simp [selecting])

theorem reset : Statement .reset := of_packet (fun _ => rfl) (fun _ => rfl) fun _ _ => meets_field rfl rfl

theorem cmdReserved5 : Statement .cmdReserved5 := of_packet (fun _ => rfl) (fun _ => rfl) fun _ _ => meets_field rfl rfl

theorem cmdReserved6 : Statement .cmdReserved6 := of_packet (fun _ => rfl) (fun _ => rfl) fun _ _ => meets_field rfl rfl

theorem cmdReserved7 : Statement .cmdReserved7 := of_packet (fun _ => rfl) (fun _ => rfl) fun _ _ => meets_field rfl rfl

theorem txIdle : Statement .txIdle := of_packet (fun _ => rfl) (fun _ => rfl) fun _ _ => meets_field rfl rfl

theorem txFrag (now : Time) (txOk : Bool) : Statement (.txFrag now txOk) := of_packet (fun _ => rfl) (fun _ => rfl) fun _ _ => meets_field rfl rfl

theorem txWait (now : Time) : Statement (.txWait now) := of_packet (fun _ => rfl) (fun _ => rfl) fun _ _ => meets_field rfl rfl

theorem txStateReserved3 : Statement .txStateReserved3 := of_packet (fun _ => rfl) (fun _ => rfl) fun _ _ => meets_field rfl rfl

theorem enc (p a sq t : Byte) : Statement (.enc p a sq t) := of_packet (fun _ => rfl) (fun _ => rfl) fun _ _ => meets_port rfl

theorem dec (id : Ident) : Statement (.dec id) := of_packet (fun _ => rfl) (fun _ => rfl) fun _ _ => meets_port rfl

theorem rkey (id : Ident) : Statement (.rkey id) := of_packet (fun _ => rfl) (fun _ => rfl) fun _ _ => meets_port rfl

theorem kidx (id : Ident) : Statement (.kidx id) := of_packet (fun _ => rfl) (fun _ => rfl) fun _ _ => meets_port rfl

theorem crc8Step (c b : Byte) : Statement (.crc8Step c b) := of_packet (fun _ => rfl) (fun _ => rfl) fun _ _ => meets_port rfl

theorem crc8 (bytes : List Byte) : Statement (.crc8 bytes) := of_packet (fun _ => rfl) (fun _ => rfl) fun _ _ => meets_port rfl

theorem frag (p : Prio) (a : Addr) (t : TypeId) (m : List Byte) : Statement (.frag p a t m) := of_none (fun _ => rfl) (fun _ => rfl)

theorem cksumOk (acc : List Byte) : Statement (.cksumOk acc) := of_none (fun _ => rfl) (fun _ => rfl)

theorem expired (k : Key) (now : Time) : Statement (.expired k now) := of_none (fun _ => rfl) (fun _ => rfl)

theorem lookup (k : Key) (now : Time) : Statement (.lookup k now) := of_none (fun _ => rfl) (fun _ => rfl)

theorem dispatch (t : TypeId) (bytes : List Byte) : Statement (.dispatch t bytes) := of_none (fun _ => rfl) (fun _ => rfl)

theorem ackEmit (p : Prio) (a : Addr) (t : TypeId) : Statement (.ackEmit p a t) := of_none (fun _ => rfl) (fun _ => rfl)

end Sys2Proof.Laws.TableRow
end

