-- ==== Sys2Proof/Tests/Slice0.lean ====
section
/-! SUPPORT. The model's own tests: ill-formed operations refused, words decoded from the spec's encodings, one step of each
operation against the vectors of spec/95_test_vectors.md, and for each statement with hypotheses states and operands that meet
them. -/

namespace Sys2Proof.Tests

set_option Elab.async false

open Sys2Proof Sys2Proof.Machine

/-! ## Small states -/

/-- The outcome is a next state, and it passes the check. -/
def after (o : Host.Outcome State Fault Refusal) (check : State → Bool) : Bool :=
  match o with
  | .next s => check s
  | .fault _ => false
  | .refused _ => false

theorem of_after {o : Host.Outcome State Fault Refusal} {check : State → Bool} (h : after o check = true) :
    ∃ s, o = .next s ∧ check s = true := by
  cases o <;> simp_all [after]

/-- An idle block with every register 0 and nothing written. -/
def blank : State :=
  { par := Params.default
    cfg := { retryLimit := 0 }
    reg := Vector.replicate 8 { valid := false, size := 0 }
    ack := { expected := 0, satisfied := false }
    tx :=
      { state := .idle, prio := 0, addr := 0, typ := 0, multi := false, slen := 0, nfrag := 0, idx := 0, retries := 0
        waitStart := 0 }
    txb := []
    ra := Vector.replicate 512 { valid := false, ts := 0, len := 0 }
    rab := Vector.replicate 512 []
    trace := []
    fnOut := none
    freeCount := 0
    env := Env.empty }

/-- The nine-byte payload of the vectors; its checksum is 0xDC (V-K18). -/
def payload : List Byte := [0x10, 0x20, 0x30, 0x40, 0x50, 0x60, 0x70, 0x80, 0x90]

/-- The first frame's bytes of that payload. -/
def payload8 : List Byte := [0x10, 0x20, 0x30, 0x40, 0x50, 0x60, 0x70, 0x80]

/-- REG t with a size, and a retry limit. -/
def configured (t : TypeId) (size : Len) (limit : Retry) : State :=
  (blank.setReg t { valid := true, size := size }).setCfg { retryLimit := limit }

/-- Key 37 (priority 0, address 4, type 5) holds the first eight bytes since time 1000; REG t=5 size=9 (V-RA1). -/
def accumulating : State :=
  ((configured 5 9 0).setRa 37 { valid := true, ts := 1000, len := 8 }).setRab 37 (Memory.writeBytes 0 payload8 [])

/-- The same entry with room for one more byte (len 255), its bytes not written. -/
def almostFull : State := blank.setRa 37 { valid := true, ts := 1000, len := 255 }

/-- The engine sends the nine-byte payload to address 4 as type 5 with retry limit 1 (V-A1). -/
def transmitting (st : TxState) (idx : Len) (retries : Retry) (satisfied : Bool) : State :=
  { configured 5 9 1 with
    ack := { expected := 5, satisfied := satisfied }
    tx :=
      { state := st, prio := 0, addr := 4, typ := 5, multi := true, slen := 10, nfrag := 2, idx := idx, retries := retries
        waitStart := 1 }
    txb := Memory.writeBytes 0 (payload ++ [0xDC]) [] }

/-- A state to which an agent's turn, and one transaction at each port, are presented. -/
def presented (s : State) (a : Agent) (cmd frame : List Byte) (call : FnPort × List Byte) : State :=
  { s with
    env := { turns := [{ agent := a, now := 7, txOk := true }], commands := [cmd], frames := [frame], calls := [call] } }

/-! ## Well-formedness refuses -/

theorem wf_refuses_long_frame :
    (Instr.rxAck 0 0 3 (List.replicate 9 0) 0).wellFormed = false ∧
    (Instr.rxStart 0 0 0 (List.replicate 9 0) 0).wellFormed = false ∧
    (Instr.rxMiddle 0 0 0 (List.replicate 9 0) 0).wellFormed = false ∧
    (Instr.rxEnd 0 0 0 (List.replicate 9 0) 0).wellFormed = false ∧
    (Instr.rxSingle 0 0 0 (List.replicate 9 0) 0).wellFormed = false := by decide

theorem wf_refuses_type_7_data_frame :
    (Instr.rxStart 0 0 7 [] 0).wellFormed = false ∧ (Instr.rxMiddle 0 0 7 [] 0).wellFormed = false ∧
    (Instr.rxEnd 0 0 7 [] 0).wellFormed = false ∧ (Instr.rxSingle 0 0 7 [] 0).wellFormed = false := by decide

theorem wf_refuses_internal_type_7 :
    (Instr.dispatch 7 []).wellFormed = false ∧ (Instr.ackEmit 0 0 7).wellFormed = false := by decide

theorem wf_refuses_empty_checksum : (Instr.cksumOk []).wellFormed = false := by decide

theorem wf_refuses_long_message : (Instr.send 0 0 0 (List.replicate 65536 0)).wellFormed = false := by
  rw [Instr.wellFormed, decide_eq_false_iff_not, List.length_replicate]; omega

theorem wf_accepts :
    (Instr.rxStart 3 15 6 (List.replicate 8 0) 0).wellFormed = true ∧ (Instr.rxAck 0 0 0 [] 0).wellFormed = true ∧
    (Instr.send 0 0 7 [1]).wellFormed = true ∧ (Instr.cksumOk [0]).wellFormed = true := by decide

/-! ## Decoding: words written out from R81, R87, R88, R90 -/

/-- Identifier bits pp aaaa ss ttt, the low eight in the first byte (R81): 00 0100 ss 101 is 0x085, 0x08D, 0x095, 0x09D. -/
theorem test_decode_data_frames :
    decode Params.default { port := .rx, bytes := [0b10000101, 0b000, 1, 0xAA] } 9 false = .ok (.rxStart 0 4 5 [0xAA] 9) ∧
    decode Params.default { port := .rx, bytes := [0b10001101, 0b000, 1, 0xAA] } 9 false = .ok (.rxMiddle 0 4 5 [0xAA] 9) ∧
    decode Params.default { port := .rx, bytes := [0b10010101, 0b000, 1, 0xAA] } 9 false = .ok (.rxEnd 0 4 5 [0xAA] 9) ∧
    decode Params.default { port := .rx, bytes := [0b10011101, 0b000, 1, 0xAA] } 9 false = .ok (.rxSingle 0 4 5 [0xAA] 9) := by decide

/-- Type 111 is RX_ACK with every sequence: 00 0100 11 111 is 0x09F (V-C15), 00 0100 00 111 is 0x087 (V-X6). -/
theorem test_decode_ack_frames :
    decode Params.default { port := .rx, bytes := [0b10011111, 0b000, 1, 5] } 9 false = .ok (.rxAck 0 4 3 [5] 9) ∧
    decode Params.default { port := .rx, bytes := [0b10000111, 0b000, 0] } 9 false = .ok (.rxAck 0 4 0 [] 9) ∧
    decode Params.default { port := .rx, bytes := [0b11111111, 0b111, 0] } 9 false = .ok (.rxAck 3 15 3 [] 9) := by decide

/-- The op codes of R87 and their operands. -/
theorem test_decode_commands :
    decode Params.default { port := .cmd, bytes := [0b000] } 0 false = .ok .nop ∧
    decode Params.default { port := .cmd, bytes := [0b001, 0xFF] } 0 false = .ok (.cfgRetry 255) ∧
    decode Params.default { port := .cmd, bytes := [0b010, 0b101, 0x02, 0x01] } 0 false = .ok (.reg 5 0x0102) ∧
    decode Params.default { port := .cmd, bytes := [0b011, 0b10, 0b1111, 0b110, 2, 0, 0xAA, 0xBB] } 0 false =
      .ok (.send 2 15 6 [0xAA, 0xBB]) ∧
    decode Params.default { port := .cmd, bytes := [0b100] } 0 false = .ok .reset ∧
    decode Params.default { port := .cmd, bytes := [0b101] } 0 false = .ok .cmdReserved5 ∧
    decode Params.default { port := .cmd, bytes := [0b110] } 0 false = .ok .cmdReserved6 ∧
    decode Params.default { port := .cmd, bytes := [0b111] } 0 false = .ok .cmdReserved7 := by decide

/-- The codes of TX.state (R88, R90). -/
theorem test_decode_tx_steps :
    decode Params.default { port := .txe, bytes := [0b00] } 9 true = .ok .txIdle ∧
    decode Params.default { port := .txe, bytes := [0b01] } 9 true = .ok (.txFrag 9 true) ∧
    decode Params.default { port := .txe, bytes := [0b10] } 9 true = .ok (.txWait 9) ∧
    decode Params.default { port := .txe, bytes := [0b11] } 9 true = .ok .txStateReserved3 := by decide

/-- Each function has its own port (R45). -/
theorem test_decode_functions :
    decode Params.default { port := .fn .enc, bytes := [5, 0x1A, 6, 0xB] } 0 false = .ok (.enc 5 0x1A 6 0xB) ∧
    decode Params.default { port := .fn .dec, bytes := [0x55, 0x5] } 0 false = .ok (.dec 0x555) ∧
    decode Params.default { port := .fn .rkey, bytes := [0x55, 0x5] } 0 false = .ok (.rkey 0x555) ∧
    decode Params.default { port := .fn .kidx, bytes := [0x55, 0x5] } 0 false = .ok (.kidx 0x555) ∧
    decode Params.default { port := .fn .crc8Step, bytes := [0, 0x80] } 0 false = .ok (.crc8Step 0 0x80) ∧
    decode Params.default { port := .fn .crc8, bytes := [1, 2] } 0 false = .ok (.crc8 [1, 2]) := by decide

/-- The sequence codes are the instance's (R83): with Start and Single exchanged, 0x085 is a Single frame and 0x09D a Start. -/
theorem test_decode_other_codes :
    let par := { Params.default with seqStart := 3, seqSingle := 0 }
    decode par { port := .rx, bytes := [0b10000101, 0b000, 1, 0xAA] } 9 false = .ok (.rxSingle 0 4 5 [0xAA] 9) ∧
    decode par { port := .rx, bytes := [0b10011101, 0b000, 1, 0xAA] } 9 false = .ok (.rxStart 0 4 5 [0xAA] 9) := by decide

/-- What no transaction is: len 9..15 (R90), a bit outside a field, a missing operand, a payload of another length. -/
theorem test_decode_refuses :
    decode Params.default { port := .rx, bytes := [0x85, 0, 9] } 0 false = .error .illegalFrameLength ∧
    decode Params.default { port := .rx, bytes := [0x85, 8, 0] } 0 false = .error .bitsOutsideField ∧
    decode Params.default { port := .rx, bytes := [0x85, 0, 2, 1] } 0 false = .error .wrongByteCount ∧
    decode Params.default { port := .cmd, bytes := [8] } 0 false = .error .bitsOutsideField ∧
    decode Params.default { port := .cmd, bytes := [1] } 0 false = .error .wrongByteCount := by decide

/-- Words of the opcode table: identifiers in two bytes, op codes in one, TX.state codes in two bits. -/
theorem test_table_words :
    decodeTableWord 16 0x007 = some (.rxAck 0 0 0 [] 0) ∧ decodeTableWord 16 0x000 = some (.rxStart 0 0 0 [] 0) ∧
    decodeTableWord 16 0x008 = some (.rxMiddle 0 0 0 [] 0) ∧ decodeTableWord 16 0x010 = some (.rxEnd 0 0 0 [] 0) ∧
    decodeTableWord 16 0x018 = some (.rxSingle 0 0 0 [] 0) ∧ decodeTableWord 8 1 = some (.cfgRetry 0) ∧
    decodeTableWord 8 2 = some (.reg 0 0) ∧ decodeTableWord 8 3 = some (.send 0 0 0 []) ∧
    decodeTableWord 8 7 = some .cmdReserved7 ∧ decodeTableWord 2 2 = some (.txWait 0) := by decide

/-- The step after `withFetchWord` runs that operation: RX_START creates entry 0, REG registers type 0, TX_FRAG sends. -/
theorem test_fetch_word :
    after (step (State.reset.withFetchWord 16 0x000)) (fun s => (s.raAt 0).valid) = true ∧
    after (step (State.reset.withFetchWord 8 2)) (fun s => (s.regAt 0).valid) = true ∧
    after (step (State.reset.withFetchWord 2 1)) (fun s => s.trace.length == 2) = true := by decide +kernel

/-! ## One step of each operation -/

/-- V-C9: operands wider than their fields lose their upper bits. -/
theorem test_enc : after (exec (.enc 5 0x1A 6 0xB) blank) (fun s => s.fnOut == some (.ident 0x353)) = true := by decide

/-- V-C10. -/
theorem test_dec : after (exec (.dec 0x555) blank) (fun s => s.fnOut == some (.fields ⟨2, 10, 2, 5⟩)) = true := by decide

/-- V-C10. -/
theorem test_rkey : after (exec (.rkey 0x555) blank) (fun s => s.fnOut == some (.routingKey 0x545)) = true := by decide

/-- V-C11. -/
theorem test_kidx : after (exec (.kidx 0x2AA) blank) (fun s => s.fnOut == some (.keyIndex 170)) = true := by decide

/-- V-K4 and V-K7. -/
theorem test_crc8_step :
    after (exec (.crc8Step 0 0x80) blank) (fun s => s.fnOut == some (.checksum 0x7A)) = true ∧
    after (exec (.crc8Step 0x31 0x02) blank) (fun s => s.fnOut == some (.checksum 0x96)) = true := by decide +kernel

/-- V-K10 (the nine digits) and V-K18. -/
theorem test_crc8 :
    after (exec (.crc8 [0x31, 0x32, 0x33, 0x34, 0x35, 0x36, 0x37, 0x38, 0x39]) blank)
      (fun s => s.fnOut == some (.checksum 0xA2)) = true ∧
    after (exec (.crc8 payload) blank) (fun s => s.fnOut == some (.checksum 0xDC)) = true := by decide +kernel

/-- V-K24 and V-K25, on the vectors' other message. -/
theorem test_cksum_ok :
    after (exec (.cksumOk [1, 2, 3, 4, 5, 6, 7, 8, 9, 0xD9]) blank)
      (fun s => s.fnOut == some (.validated true [1, 2, 3, 4, 5, 6, 7, 8, 9])) = true ∧
    after (exec (.cksumOk [1, 2, 3, 4, 5, 6, 7, 8, 9, 0xD8]) blank)
      (fun s => s.fnOut == some (.validated false [1, 2, 3, 4, 5, 6, 7, 8, 9])) = true := by decide +kernel

/-- V-F7: sixteen bytes are three frames, the End frame holding the checksum alone. -/
theorem test_frag :
    after (exec (.frag 1 2 3 [1, 2, 3, 4, 5, 6, 7, 8, 9, 10, 11, 12, 13, 14, 15, 16]) blank)
      (fun s => s.fnOut == some (.frames [⟨0x243, [1, 2, 3, 4, 5, 6, 7, 8]⟩, ⟨0x24B, [9, 10, 11, 12, 13, 14, 15, 16]⟩,
        ⟨0x253, [0xC1]⟩])) = true := by decide +kernel

/-- V-F4: eight bytes are one Single frame. -/
theorem test_frag_single :
    after (exec (.frag 1 2 3 [1, 2, 3, 4, 5, 6, 7, 8]) blank)
      (fun s => s.fnOut == some (.frames [⟨0x25B, [1, 2, 3, 4, 5, 6, 7, 8]⟩])) = true := by decide +kernel

/-- V-X1: a matching byte satisfies the slot. -/
theorem test_rx_ack :
    after (exec (.rxAck 0 4 3 [5] 0) (blank.setAck ⟨5, false⟩)) (fun s => s.ack == ⟨5, true⟩) = true := by decide

/-- V-X4: the whole byte is compared; V-X7: a byte of another type does not clear. -/
theorem test_rx_ack_ignored :
    after (exec (.rxAck 0 4 3 [0x0D] 0) (blank.setAck ⟨5, false⟩)) (fun s => s.ack == ⟨5, false⟩) = true ∧
    after (exec (.rxAck 0 4 3 [2] 0) (blank.setAck ⟨5, true⟩)) (fun s => s.ack == ⟨5, true⟩) = true := by decide

/-- The example of R122: RA[37] and its bytes. -/
theorem test_rx_start :
    after (exec (.rxStart 0 4 5 payload8 1000) blank)
      (fun s => s.raAt 37 == ⟨true, 1000, 8⟩ && rabRead s 37 0 8 == some payload8 && s.trace == []) = true := by
  decide +kernel

/-- The examples of R123: at 1002 the frame is appended, at 1501 the entry is dropped. -/
theorem test_rx_middle :
    after (exec (.rxMiddle 0 4 5 [1, 2] 1002) accumulating)
      (fun s => s.raAt 37 == ⟨true, 1000, 10⟩ && rabRead s 37 0 10 == some (payload8 ++ [1, 2])) = true ∧
    after (exec (.rxMiddle 0 4 5 [1, 2] 1501) accumulating) (fun s => s.raAt 37 == ⟨false, 1000, 8⟩) = true := by
  decide +kernel

/-- V-RA21 and V-RA22: an entry of 250 bytes overflows 256 with eight more, and with RA_CAP = ∞ it does not. -/
theorem test_overflow :
    let s := blank.setRa 37 { valid := true, ts := 0, len := 250 }
    wouldOverflow s 37 8 = true ∧ wouldOverflow { s with par := { Params.default with raCap := none } } 37 8 = false := by
  decide +kernel

/-- V-RA1: delivered, then acknowledged; the entry is removed. -/
theorem test_rx_end :
    after (exec (.rxEnd 0 4 5 [0x90, 0xDC] 1003) accumulating)
      (fun s => s.trace == [.deliver 5 payload, .txf ⟨0x09F, [5]⟩] && (s.raAt 37).valid == false) = true := by
  decide +kernel

/-- V-RA3: a corrupted checksum byte drops the message silently and removes the entry. -/
theorem test_rx_end_corrupted :
    after (exec (.rxEnd 0 4 5 [0x90, 0xDD] 1003) accumulating)
      (fun s => s.trace == [] && (s.raAt 37).valid == false) = true := by decide +kernel

/-- V-D1 and V-D2. -/
theorem test_rx_single :
    after (exec (.rxSingle 1 2 3 [0xDE, 0xAD, 0xBE, 0xEF] 0) (configured 3 4 0))
      (fun s => s.trace == [.deliver 3 [0xDE, 0xAD, 0xBE, 0xEF]]) = true ∧
    after (exec (.rxSingle 1 2 3 [1, 2] 0) (configured 3 4 0)) (fun s => s.trace == []) = true := by decide

/-- R173, and the reserved op codes as the hardware treats them (R90): nothing changes. -/
theorem test_nop : exec .nop accumulating = .next accumulating ∧ exec .cmdReserved6 accumulating = .next accumulating :=
  ⟨rfl, rfl⟩

/-- R170: written while idle, held while busy (V-A16). -/
theorem test_cfg_retry :
    after (exec (.cfgRetry 2) blank) (fun s => s.cfg.retryLimit == 2) = true ∧
    after (exec (.cfgRetry 5) (transmitting .sending 0 0 false)) (fun s => s.cfg.retryLimit == 1) = true := by decide

/-- V-D4: the last registration wins; V-A17: also during a send. -/
theorem test_reg :
    after (exec (.reg 3 2) (configured 3 4 0)) (fun s => s.regAt 3 == ⟨true, 2⟩) = true ∧
    after (exec (.reg 2 1) (transmitting .sending 0 0 false)) (fun s => s.regAt 2 == ⟨true, 1⟩) = true := by decide

/-- V-A1: the engine is loaded and the slot armed. -/
theorem test_send :
    after (exec (.send 0 4 5 payload) (configured 5 9 2))
      (fun s => s.tx.state == .sending && s.tx.multi && s.tx.slen == 10 && s.tx.nfrag == 2 && s.tx.idx == 0 &&
        txbRead s 0 10 == some (payload ++ [0xDC]) && s.ack == ⟨5, false⟩ && s.trace == []) = true := by decide +kernel

/-- V-A14: type 7 is rejected. -/
theorem test_send_rejected :
    after (exec (.send 0 4 7 [1]) blank) (fun s => s.trace == [.done .rejected] && s.tx == blank.tx) = true := by decide

/-- R174: an entry and a send are abandoned without an event. -/
theorem test_reset :
    after (exec .reset (transmitting .waitAck 1 0 false)) (fun s => s.tx.state == .idle && s.trace == []) = true ∧
    after (exec .reset accumulating) (fun s => (s.raAt 37).valid == false && (s.regAt 5).valid == false) = true := by
  decide +kernel

/-- V-A19. -/
theorem test_tx_idle : exec .txIdle accumulating = .next accumulating := rfl

/-- V-A2: the first fragment, then the last one, which begins the wait. -/
theorem test_tx_frag :
    after (exec (.txFrag 0 true) (transmitting .sending 0 0 false))
      (fun s => s.trace == [.txf ⟨0x085, payload8⟩] && s.tx.idx == 1) = true ∧
    after (exec (.txFrag 1 true) (transmitting .sending 1 0 false))
      (fun s => s.trace == [.txf ⟨0x095, [0x90, 0xDC]⟩] && s.tx.state == .waitAck && s.tx.waitStart == 1) = true := by
  decide +kernel

/-- V-A13: a refused fragment ends the send. -/
theorem test_tx_frag_refused :
    after (exec (.txFrag 0 false) (transmitting .sending 0 1 false))
      (fun s => s.trace == [.txf ⟨0x085, payload8⟩, .done .failTransport] && s.tx.state == .idle && s.tx.retries == 1)
      = true := by decide +kernel

/-- V-A3 and V-A4: 99 waits, 100 is a timeout. -/
theorem test_tx_wait :
    after (exec (.txWait 100) (transmitting .waitAck 1 0 false)) (fun s => s.tx.state == .waitAck) = true ∧
    after (exec (.txWait 101) (transmitting .waitAck 1 0 false))
      (fun s => s.tx.state == .sending && s.tx.retries == 1 && s.tx.idx == 0 && s.trace == []) = true := by decide

/-- V-A18: exhausted retries; V-A5: an acknowledgment wins over a due timeout. -/
theorem test_tx_wait_ends :
    after (exec (.txWait 101) (transmitting .waitAck 1 1 false))
      (fun s => s.trace == [.err 5 4, .done .failNoack] && s.tx.state == .idle) = true ∧
    after (exec (.txWait 101) (transmitting .waitAck 1 1 true)) (fun s => s.trace == [.done .ok]) = true := by decide

/-- R90, R26: no meaning. -/
theorem test_tx_state_reserved : exec .txStateReserved3 blank = .refused .txStateReserved := rfl

/-- V-RA4 and V-RA5: 500 is live, 501 expired. -/
theorem test_expired :
    after (exec (.expired 37 1500) accumulating) (fun s => s.fnOut == some (.expiry false)) = true ∧
    after (exec (.expired 37 1501) accumulating) (fun s => s.fnOut == some (.expiry true)) = true := by decide +kernel

/-- V-RA23: elapsed time across the wrap of the time input. -/
theorem test_elapsed_wrap :
    elapsed 0x000000F4 0xFFFFFF00 = 500 ∧ isExpired 0x000000F4 0xFFFFFF00 = false ∧ isExpired 0x000000F5 0xFFFFFF00 = true := by
  decide

/-- R125: absent, expired, live. -/
theorem test_lookup :
    after (exec (.lookup 36 0) accumulating) (fun s => s.fnOut == some (.lookup .absent)) = true ∧
    after (exec (.lookup 37 1501) accumulating)
      (fun s => s.fnOut == some (.lookup .expired) && (s.raAt 37).valid == false) = true ∧
    after (exec (.lookup 37 1500) accumulating) (fun s => s.fnOut == some (.lookup .live) && (s.raAt 37).valid) = true := by
  decide +kernel

/-- The examples of R172. -/
theorem test_dispatch :
    after (exec (.dispatch 3 [1, 2, 3, 4, 5]) (configured 3 4 0)) (fun s => s.trace == [.deliver 3 [1, 2, 3, 4, 5]]) = true ∧
    after (exec (.dispatch 3 [1, 2]) (configured 3 4 0)) (fun s => s.trace == []) = true ∧
    after (exec (.dispatch 4 [1, 2, 3, 4]) (configured 3 4 0)) (fun s => s.trace == []) = true := by decide

/-- V-RA1's acknowledgment, and that of a message to BROADCAST_ADDR (V-C16), which is treated alike (R132). -/
theorem test_ack_emit :
    after (exec (.ackEmit 0 4 5) blank) (fun s => s.trace == [.txf ⟨0x09F, [5]⟩]) = true ∧
    after (exec (.ackEmit 3 Config.broadcastAddr 1) blank) (fun s => s.trace == [.txf ⟨0x7FF, [1]⟩]) = true := by decide

/-! ## States that meet the hypotheses of the statements -/

/-- An idle block with the default parameters, an empty table and nothing written meets the invariant. -/
theorem idle_inv {s : State} (hp : s.par = Params.default) (hs : s.tx.state = .idle) (hv : ∀ k, (s.raAt k).valid = false)
    (hr : ∀ k, s.rabAt k = []) (ht : s.txb = []) : BlockInv s := by
  refine ⟨by rw [hp]; decide, ⟨?_, ?_, ?_, ?_⟩, ⟨?_, ?_, ?_⟩, by simp [hs], by simp [hs]⟩
  · exact fun k => by rw [hr]; exact List.Pairwise.nil
  · rw [ht]; exact List.Pairwise.nil
  · exact fun k x hx => absurd hx (by rw [hr]; exact List.not_mem_nil)
  · rw [ht]; exact fun c hc => absurd hc List.not_mem_nil
  all_goals exact fun k hk => absurd hk (by simp [hv k])

theorem blank_entry (k : Key) : (blank.raAt k).valid = false := by simp [State.raAt, blank]

theorem blank_bytes (k : Key) : blank.rabAt k = [] := by simp [State.rabAt, blank]

theorem configured_inv (t : TypeId) (size : Len) (limit : Retry) : BlockInv (configured t size limit) :=
  idle_inv rfl rfl blank_entry blank_bytes rfl

/-- A busy state meets the invariant: the engine sends, fragment 0 or 1 is next, or it waits. -/
theorem transmitting_inv {st : TxState} {idx : Len} {retries : Retry} {sat : Bool} (h3 : st ≠ .reserved3) (hi : idx.toNat < 2)
    (hr : retries.toNat ≤ 1) : BlockInv (transmitting st idx retries sat) := by
  have hp : Params.default.Ok := by decide
  have hw : Memory.wf (Memory.writeBytes 0 (payload ++ [0xDC]) []) := by decide +kernel
  have hb : ∀ c ∈ Memory.writeBytes 0 (payload ++ [0xDC]) [], c.1 < 256 := by decide +kernel
  have hd : (Memory.readBytes (Memory.writeBytes 0 (payload ++ [0xDC]) []) 0 10).isSome = true := by decide +kernel
  have hv : ∀ k, (transmitting st idx retries sat).raAt k = blank.raAt k := fun _ => rfl
  have hn : ∀ k, (transmitting st idx retries sat).rabAt k = [] := blank_bytes
  refine ⟨hp, ⟨fun k => by rw [hn]; exact List.Pairwise.nil, hw, fun k x hx => absurd hx (by rw [hn]; exact List.not_mem_nil), hb⟩, ⟨?_, ?_, ?_⟩, h3, fun _ =>
    ⟨by simp [transmitting, Config.ackType], by simp [transmitting], by simp [transmitting],
      by simp [transmitting, configured, blank, Params.default], hd, hi, hr, fun _ => ⟨rfl, Nat.one_pos⟩, fun _ _ => rfl⟩⟩
  all_goals exact fun k hk => absurd hk (by rw [hv, blank_entry]; exact Bool.false_ne_true)

/-- RoutingKeyMasksSequence: V-C12's identifier has sequence 0. -/
theorem witness_routing_key : (dec 0x123).seq = 0 := by decide

/-- CrcDetectsOneChangedByte: two bytes that differ (V-K21). -/
theorem witness_crc_changed : (0x10 : Byte) ≠ 0x11 ∧ crc8Step 0 0x80 = crc8Step 0 0x80 := ⟨by decide, rfl⟩

/-- DecodeEncodeRoundTrip: a well-formed operation with a packet. -/
theorem witness_round_trip :
    Params.default.SeqDistinct ∧ (Instr.rxStart 0 4 5 [0xAA] 9).WellFormed ∧
    encode Params.default (.rxStart 0 4 5 [0xAA] 9) = some { port := .rx, bytes := [0x85, 0, 1, 0xAA] } := by decide

/-- EncodeDecodeRoundTrip: a packet that decodes. -/
theorem witness_encode_decode :
    decode Params.default { port := .cmd, bytes := [3, 3, 15, 7, 1, 0, 0xAA] } 0 false = .ok (.send 3 15 7 [0xAA]) := by decide

/-- ReceiveSelection: an identifier for each row, with the longest payload. -/
theorem witness_receive_selection :
    (List.replicate 8 (0 : Byte)).length ≤ 8 ∧ (0x09F#11 &&& 0x007#11 = 0x007#11) ∧
    (0x085#11 &&& 0x007#11 ≠ 0x007#11 ∧ 0x085#11 &&& 0x018#11 = 0x000#11) ∧
    (0x08D#11 &&& 0x007#11 ≠ 0x007#11 ∧ 0x08D#11 &&& 0x018#11 = 0x008#11) ∧
    (0x095#11 &&& 0x007#11 ≠ 0x007#11 ∧ 0x095#11 &&& 0x018#11 = 0x010#11) ∧
    (0x09D#11 &&& 0x007#11 ≠ 0x007#11 ∧ 0x09D#11 &&& 0x018#11 = 0x018#11) := by decide

/-- TransmitSelection, and the transmit clause of StepRunsPresentedOperation. -/
theorem witness_transmit_selection (st : TxState) :
    let s := presented (transmitting st 0 0 false) .txe [0] [] (.crc8, [])
    s.env.turns = [⟨.txe, 7, true⟩] ∧ s.tx.state = st := ⟨rfl, rfl⟩

/-- IllegalFrameLengthRefused: len 9 without bytes, and len 15 with fifteen. -/
theorem witness_illegal_length :
    let s := presented blank .rxp [0] [0x85, 0, 9] (.crc8, [])
    let u := presented blank .rxp [0] (0x85 :: 0 :: 15 :: List.replicate 15 0) (.crc8, [])
    s.env.frames = [[0x85, 0, 9]] ∧ u.env.frames = [0x85 :: 0 :: 15 :: List.replicate 15 0] ∧
    (step s matches .refused (.undecodable .illegalFrameLength)) ∧
    (step u matches .refused (.undecodable .illegalFrameLength)) := by
  refine ⟨rfl, rfl, ?_, ?_⟩ <;> decide

/-- StepRunsPresentedOperation: a command, a frame and a call that decode, and the reset input. -/
theorem witness_step_runs :
    let s := fun a => presented blank a [2, 5, 9, 0] [0x9D, 0, 1, 0xAA] (.crc8Step, [0, 0x80])
    decode Params.default { port := .cmd, bytes := [2, 5, 9, 0] } 7 true = .ok (.reg 5 9) ∧
    decode Params.default { port := .rx, bytes := [0x9D, 0, 1, 0xAA] } 7 true = .ok (.rxSingle 0 4 5 [0xAA] 7) ∧
    decode Params.default { port := .fn .crc8Step, bytes := [0, 0x80] } 7 true = .ok (.crc8Step 0 0x80) ∧
    after (step (s .host)) (fun u => u.regAt 5 == ⟨true, 9⟩ && u.env.commands == []) = true ∧
    after (step (s .rxp)) (fun u => u.env.frames == []) = true ∧
    after (step (s .fn)) (fun u => u.fnOut == some (.checksum 0x7A)) = true ∧
    after (step (s .resetInput)) (fun u => u.freeCount == 1) = true := by
  refine ⟨by decide, by decide, by decide, ?_, ?_, ?_, ?_⟩ <;> decide +kernel

/-- StepWithNothingPresented: no turn, and a turn of each agent whose port is empty. -/
theorem witness_nothing_presented (a : Agent) :
    blank.env.turns = [] ∧
    let s := blank.setEnv { Env.empty with turns := [⟨a, 0, false⟩] }
    s.env.turns = [⟨a, 0, false⟩] ∧ s.env.commands = [] ∧ s.env.frames = [] ∧ s.env.calls = [] := by simp [blank, Env.empty]

/-- CommandsHeldDuringSend: a SEND and a CFG_RETRY wait while the engine sends, and are taken when it is idle. -/
theorem witness_commands_held :
    decode Params.default { port := .cmd, bytes := [1, 5] } 7 true = .ok (.cfgRetry 5) ∧
    decode Params.default { port := .cmd, bytes := [3, 0, 4, 5, 1, 0, 0xAA] } 7 true = .ok (.send 0 4 5 [0xAA]) ∧
    (transmitting .sending 0 0 false).tx.state ≠ .idle ∧ blank.tx.state = .idle ∧
    after (step (presented (transmitting .sending 0 0 false) .host [1, 5] [] (.crc8, [])))
      (fun s => s.env.commands == [[1, 5]]) = true ∧
    after (step (presented blank .host [3, 0, 4, 5, 1, 0, 0xAA] [] (.crc8, []))) (fun s => s.env.commands == []) = true := by
  refine ⟨by decide, by decide, by decide, rfl, ?_, ?_⟩ <;> decide +kernel

/-- RxAckSetsSatisfied: a byte that matches, none, and one that does not. -/
theorem witness_rx_ack :
    let s := blank.setAck ⟨5, false⟩
    (5 : Byte).toNat = s.ack.expected.toNat ∧ (0x0D : Byte).toNat ≠ s.ack.expected.toNat ∧ s.ack.satisfied = false := by
  decide

/-- RxSingleDelivers, DispatchFilters and AckFrameFormat: exactly the expected size, one byte less, and a type without handler. -/
theorem witness_dispatch :
    let s := configured 3 4 0
    (3 : TypeId) ≠ 7 ∧ (4 : TypeId) ≠ 7 ∧
    (s.regAt 3).valid = true ∧ (s.regAt 3).size.toNat ≤ [0xDE, 0xAD, 0xBE, (0xEF : Byte)].length ∧
    [1, 2, (3 : Byte)].length < (s.regAt 3).size.toNat ∧ (s.regAt 4).valid = false := by decide

/-- InternalFunctionsOnType7: a handler for type 7 (V-D7), a message of its size, one shorter, and none. -/
theorem witness_type_7 :
    ((configured 7 2 0).regAt 7).valid = true ∧ ((configured 7 2 0).regAt 7).size.toNat ≤ [1, (2 : Byte)].length ∧
    [(1 : Byte)].length < ((configured 7 2 0).regAt 7).size.toNat ∧ (blank.regAt 7).valid = false := by decide

/-- RxStartCreatesEntry: the longest payload. -/
theorem witness_rx_start : payload8.length ≤ 8 ∧ blank.par.Ok := by decide

/-- The key of the vectors' message (R122's example), whatever the sequence tag. -/
theorem witness_key :
    kidx (packId 0 4 Params.default.seqStart 5) = 37 ∧ kidx (packId 0 4 Params.default.seqMiddle 5) = 37 ∧
    kidx (packId 0 4 Params.default.seqEnd 5) = 37 := by decide

/-- RxMiddleDropsOrAppends and RxEndDropsOrCompletes: no entry, one expired at 501, one that two bytes overflow (257 > 256); one
live at exactly 500 whose bytes can be read, and one that a byte fills to exactly 256. -/
theorem witness_rx_middle_end :
    (blank.raAt 37).valid = false ∧
    (accumulating.raAt 37).valid = true ∧ 500 < ((1501 : Time) - (accumulating.raAt 37).ts).toNat ∧
    ((1500 : Time) - (accumulating.raAt 37).ts).toNat ≤ 500 ∧
    (∀ c ∈ accumulating.par.raCap, (accumulating.raAt 37).len + 2 ≤ c) ∧ accumulating.par.Ok ∧
    rabRead accumulating 37 0 (accumulating.raAt 37).len = some payload8 ∧
    (almostFull.raAt 37).valid = true ∧ (∃ c ∈ almostFull.par.raCap, c < (almostFull.raAt 37).len + 2) ∧
    (∀ c ∈ almostFull.par.raCap, (almostFull.raAt 37).len + 1 ≤ c) := by decide +kernel

/-- RxEndDropsOrCompletes: accumulated bytes whose last byte is the checksum of the others, and whose last byte is not; and an
entry with no byte at all. -/
theorem witness_rx_end_cases :
    payload8 ++ [0x90, 0xDC] = payload ++ [0xDC] ∧ crc8 payload = 0xDC ∧ crc8 payload ≠ 0xDD ∧
    rabRead (blank.setRa 37 ⟨true, 0, 0⟩) 37 0 0 = some [] := by decide +kernel

/-- StopsByName: a valid entry and a send whose bytes were never written, and a payload longer than a buffer. -/
theorem witness_stops :
    (almostFull.raAt 37).valid = true ∧ ((1000 : Time) - (almostFull.raAt 37).ts).toNat ≤ 500 ∧
    (∀ c ∈ almostFull.par.raCap, (almostFull.raAt 37).len + 1 ≤ c) ∧ rabRead almostFull 37 0 255 = none ∧
    ((transmitting .sending 0 0 false).setTxb []).tx.state = .sending ∧
    txbRead ((transmitting .sending 0 0 false).setTxb []) (8 * 0) (min 8 (10 - 8 * 0)) = none ∧
    (∃ c ∈ blank.par.raCap, c < (List.replicate 257 (0 : Byte)).length) := by decide +kernel

/-- LookupAndExpiry and ExpiredOfInvalidEntryCompletes: the three cases, at both edges. -/
theorem witness_lookup :
    (accumulating.raAt 36).valid = false ∧ (accumulating.raAt 37).valid = true ∧
    500 < ((1501 : Time) - (accumulating.raAt 37).ts).toNat ∧ ((1500 : Time) - (accumulating.raAt 37).ts).toNat ≤ 500 := by
  decide +kernel

/-- CfgRetryWritesLimit, SendRejected, SendStartsTransmission: an idle and a busy engine, type 7, TX_CAP + 1 bytes, and messages of
8 and of TX_CAP bytes. -/
theorem witness_send :
    blank.par.Ok ∧ blank.tx.state = .idle ∧ (transmitting .waitAck 1 0 false).tx.state ≠ .idle ∧
    blank.par.txCap < (List.replicate 256 (0 : Byte)).length ∧ (5 : TypeId) ≠ 7 ∧
    (List.replicate 255 (0 : Byte)).length ≤ blank.par.txCap ∧ payload8.length ≤ 8 ∧ 8 < payload.length := by
  decide +kernel

/-- RegRegisters: another entry. -/
theorem witness_reg : (4 : TypeId) ≠ 5 := by decide

/-- TxFragTransmits: the first fragment of two, the last, in retry-mode and without it. -/
theorem witness_tx_frag :
    let s := fun idx => transmitting .sending idx 0 false
    (s 0).tx.state = .sending ∧ txbRead (s 0) (8 * 0) (min 8 (10 - 8 * 0)) = some payload8 ∧
    txbRead (s 1) (8 * 1) (min 8 (10 - 8 * 1)) = some [0x90, 0xDC] ∧
    (s 0).tx.idx.toNat + 1 < (s 0).tx.nfrag.toNat ∧ (s 1).tx.nfrag.toNat ≤ (s 1).tx.idx.toNat + 1 ∧
    (s 1).tx.multi = true ∧ (s 1).cfg.retryLimit ≠ 0 ∧ ((s 1).setCfg ⟨0⟩).cfg.retryLimit = 0 := by decide +kernel

/-- TxWaitPolls: satisfied; timed out at exactly 100 with and without a retry left; 99. -/
theorem witness_tx_wait :
    (transmitting .waitAck 1 0 true).ack.satisfied = true ∧
    let s := fun retries => transmitting .waitAck 1 retries false
    (s 0).ack.satisfied = false ∧ 100 ≤ ((101 : Time) - (s 0).tx.waitStart).toNat ∧
    (s 0).tx.retries.toNat < (s 0).cfg.retryLimit.toNat ∧ (s 1).cfg.retryLimit.toNat ≤ (s 1).tx.retries.toNat ∧
    ((100 : Time) - (s 0).tx.waitStart).toNat < 100 := by decide +kernel

/-- OperationsWithoutEffect and UnselectedTransmitSteps: an idle engine, and one that sends. -/
theorem witness_unselected :
    blank.tx.state = .idle ∧ blank.tx.state ≠ .sending ∧ blank.tx.state ≠ .waitAck ∧
    (transmitting .sending 0 0 false).tx.state ≠ .idle := by decide

/-- FragCutsMessage: eight bytes, and nine. -/
theorem witness_frag : payload8.length ≤ 8 ∧ 8 < payload.length := by decide

/-- AttemptTransmitsFrag: the nine bytes take two steps, after which the engine waits. -/
theorem witness_attempt :
    BlockInv (configured 5 9 1) ∧ payload.length ≤ (configured 5 9 1).par.txCap ∧
    ([0, 1] : List Time).length = (frag Params.default 0 4 5 payload).length ∧
    ∃ s1, exec (.send 0 4 5 payload) (configured 5 9 1) = .next s1 ∧
      after (txeRun [0, 1] s1) (fun u => u.tx.state == .waitAck) = true :=
  ⟨configured_inv 5 9 1, by decide +kernel, by decide +kernel, of_after (check := fun s1 =>
    after (txeRun [0, 1] s1) (fun u => u.tx.state == .waitAck)) (by decide +kernel)⟩

/-- RetryCountLaw and UnacknowledgedSendEnds: with retry limit 1 six steps end the send (two fragments and one poll, twice). -/
theorem witness_retry_count :
    BlockInv (configured 5 9 1) ∧ (configured 5 9 1).tx.state = .idle ∧ 8 < payload.length ∧
    payload.length ≤ (configured 5 9 1).par.txCap ∧ 0 < (configured 5 9 1).cfg.retryLimit.toNat ∧
    ∃ s1 u, exec (.send 0 4 5 payload) (configured 5 9 1) = .next s1 ∧
      txeRun [0, 1, 101, 102, 103, 203] s1 = .next u ∧ u.tx.state = .idle := by
  refine ⟨configured_inv 5 9 1, rfl, by decide, by decide +kernel, by decide +kernel, ?_⟩
  obtain ⟨s1, h1, h2⟩ := of_after (o := exec (.send 0 4 5 payload) (configured 5 9 1)) (check := fun s1 =>
    after (txeRun [0, 1, 101, 102, 103, 203] s1) (fun u => u.tx.state == .idle)) (by decide +kernel)
  obtain ⟨u, h3, h4⟩ := of_after h2
  exact ⟨s1, u, h1, h3, by simpa using h4⟩

/-- FragmentationRoundTrip: nine bytes in two frames, the second exactly 500 time units after the first. -/
theorem witness_fragmentation :
    BlockInv (configured 5 9 0) ∧ payload.length ≤ (configured 5 9 0).par.txCap ∧
    (∀ c ∈ (configured 5 9 0).par.raCap, payload.length + 1 ≤ c) ∧ ((configured 5 9 0).regAt 5).valid = true ∧
    ((configured 5 9 0).regAt 5).size.toNat ≤ payload.length ∧
    ((3000 : Time) :: [3500]).length = (frag Params.default 0 4 5 payload).length ∧ ((3500 : Time) - 3000).toNat ≤ 500 :=
  ⟨configured_inv 5 9 0, by decide +kernel, by decide +kernel, by decide, by decide, by decide +kernel, by decide⟩

/-- ElapsedTimeAcrossWrap: V-RA23's times, both ways round. -/
theorem witness_elapsed :
    (0x000000F4 : Time).toNat < (0xFFFFFF00 : Time).toNat ∧ (1000 : Time).toNat ≤ (1000 : Time).toNat := by decide

/-- ReceiveLeavesOtherKeys and ReceiveDependsOnOwnKey: a frame that ends key 37's message, seen from key 147; and a second state
that differs in the transmit engine. -/
theorem witness_other_key :
    accumulating.par.Ok ∧ (dec 0x095).typ ≠ 7 ∧ (147 : Key) ≠ kidx 0x095 ∧
    (∃ u, exec (classify Params.default 0x095 [0x90, 0xDC] 1003) accumulating = .next u) ∧
    let s' := accumulating.setTx { accumulating.tx with state := .sending }
    s'.par = accumulating.par ∧ s'.reg = accumulating.reg ∧ s'.raAt (kidx 0x095) = accumulating.raAt (kidx 0x095) ∧
    s'.rabAt (kidx 0x095) = accumulating.rabAt (kidx 0x095) := by
  refine ⟨by decide +kernel, by decide, by decide, ?_, rfl, rfl, rfl, rfl⟩
  obtain ⟨u, h, _⟩ := of_after (o := exec (classify Params.default 0x095 [0x90, 0xDC] 1003) accumulating) (check := fun _ => true)
    (by decide +kernel)
  exact ⟨u, h⟩

/-- OnlyTheNamedWriters: for each element an operation that completes and changes it. -/
theorem witness_writers :
    after (exec (.cfgRetry 2) blank) (fun u => u.cfg.retryLimit != blank.cfg.retryLimit) = true ∧
    after (exec (.reg 5 9) blank) (fun u => u.regAt 5 != blank.regAt 5) = true ∧
    after (exec (.send 0 4 5 payload) (configured 5 9 1))
      (fun u => u.ack.expected != 0 && u.tx.state != .idle && u.tx.addr != 0 && u.tx.typ != 0 && u.tx.slen != 0 &&
        u.txb != blank.txb) = true ∧
    after (exec (.txFrag 0 true) (transmitting .sending 0 0 false)) (fun u => u.tx.idx != 0) = true ∧
    after (exec (.txFrag 0 true) (transmitting .sending 1 0 false)) (fun u => u.tx.waitStart != 1) = true ∧
    after (exec (.txWait 101) (transmitting .waitAck 1 0 false)) (fun u => u.tx.retries != 0) = true ∧
    after (exec (.rxAck 0 4 3 [0] 0) blank) (fun u => u.ack.satisfied) = true ∧
    after (exec (.rxStart 0 4 5 payload8 0) blank) (fun u => (u.raAt 37).valid && (u.raAt 37).len != 0 && u.rabAt 37 != blank.rabAt 37) = true := by
  decide +kernel

/-- SatisfiedIsSticky: an arming SEND clears it, a matching RX_ACK sets it. -/
theorem witness_sticky :
    after (exec (.send 0 4 5 payload) ((configured 5 9 1).setAck ⟨3, true⟩)) (fun u => !u.ack.satisfied) = true ∧
    after (exec (.rxAck 0 4 3 [0] 0) blank) (fun u => u.ack.satisfied) = true := by decide +kernel

/-- OnlyStartWritesTimestamp: a timestamp that changes. -/
theorem witness_timestamp :
    after (exec (.rxStart 0 4 5 payload8 1000) blank) (fun u => (u.raAt 37).ts != (blank.raAt 37).ts) = true := by
  decide +kernel

/-- SequencerTransitions: each change of TX.state. -/
theorem witness_transitions :
    after (exec .reset (transmitting .sending 0 0 false)) (fun u => u.tx.state == .idle) = true ∧
    after (exec (.send 0 4 5 payload) blank) (fun u => u.tx.state == .sending) = true ∧
    after (exec (.txFrag 0 false) (transmitting .sending 0 0 false)) (fun u => u.tx.state == .idle) = true ∧
    after (exec (.txFrag 0 true) ((transmitting .sending 1 0 false).setCfg ⟨0⟩)) (fun u => u.tx.state == .idle) = true ∧
    after (exec (.txFrag 0 true) (transmitting .sending 1 0 false)) (fun u => u.tx.state == .waitAck) = true ∧
    after (exec (.txWait 101) (transmitting .waitAck 1 1 false)) (fun u => u.tx.state == .idle) = true ∧
    after (exec (.txWait 101) (transmitting .waitAck 1 0 false)) (fun u => u.tx.state == .sending) = true := by
  decide +kernel

/-- EventsHaveTheirEmitters and NoErrorWithoutRetries: an operation that completes, with an old ERR in the trace. -/
theorem witness_events :
    BlockInv ((configured 5 9 0).emit (.err 5 4)) ∧ ((configured 5 9 0).emit (.err 5 4)).cfg.retryLimit = 0 ∧
    exec .nop ((configured 5 9 0).emit (.err 5 4)) = .next ((configured 5 9 0).emit (.err 5 4)) ∧
    Event.err 5 4 ∈ ((configured 5 9 0).emit (.err 5 4)).trace :=
  ⟨idle_inv rfl rfl blank_entry blank_bytes rfl, rfl, rfl, by simp⟩

/-- InvariantAfterReset: the default parameters, and the smallest admitted, RA_CAP = ∞, and other sequence codes. -/
theorem witness_params :
    Params.default.Ok ∧ ({ Params.default with raCap := some 62, txCap := 61 } : Params).Ok ∧
    ({ Params.default with raCap := none } : Params).Ok ∧
    ({ Params.default with seqStart := 3, seqSingle := 0 } : Params).SeqDistinct := by decide

/-- OperationsKeepInvariant, StepKeepsInvariant, NoOperationFaults: busy states with the invariant, and a well-formed operation
and a step that complete from one. -/
theorem witness_invariant :
    BlockInv (transmitting .sending 0 0 false) ∧ BlockInv (transmitting .waitAck 1 1 true) ∧
    (Instr.txFrag 0 true).WellFormed ∧
    after (exec (.txFrag 0 true) (transmitting .sending 0 0 false)) (fun _ => true) = true ∧
    after (step (presented (transmitting .sending 0 0 false) .txe [] [] (.crc8, []))) (fun u => u.tx.idx == 1) = true :=
  ⟨transmitting_inv (by decide) (by decide) (by decide), transmitting_inv (by decide) (by decide) (by decide), by decide,
    by decide +kernel, by decide +kernel⟩

/-- RunsStopOnlyOnIllegalInput: a step that is refused. -/
theorem witness_refused :
    BlockInv (presented (configured 5 9 1) .host [8] [] (.crc8, [])) ∧
    (step (presented (configured 5 9 1) .host [8] [] (.crc8, [])) matches .refused (.undecodable .bitsOutsideField)) :=
  ⟨idle_inv rfl rfl blank_entry blank_bytes rfl, by decide +kernel⟩

end Sys2Proof.Tests
end

section
/-! PROOFS. Scope and exceptions (spec/00_scope.md R9 to R11): every admitted operation completes in a state with the
invariant, so no operation, step or run faults; and which operation a step runs. -/

namespace Sys2Proof.Machine

/-! ## What each part of the invariant reads -/

/-- The memories' invariant reads the parameters, RAB and TXB. -/
theorem MemInv.of_eq {s u : State} (h : MemInv s) (hpar : u.par = s.par) (hrab : ∀ k, u.rabAt k = s.rabAt k)
    (htxb : u.txb = s.txb) : MemInv u where
  rab_wf k := hrab k ▸ h.rab_wf k
  txb_wf := htxb ▸ h.txb_wf
  rab_range k := by rw [hrab, hpar]; exact h.rab_range k
  txb_range := by rw [htxb, hpar]; exact h.txb_range

/-- What the table's invariant says of one valid entry (R30, R31, R33). -/
structure EntryOk (s : State) (k : Key) : Prop where
  len_le : ∀ c ∈ s.par.raCap, (s.raAt k).len ≤ c
  written : (rabRead s k 0 (s.raAt k).len).isSome = true
  typ_ne : Key.typ k ≠ Config.ackType

theorem RaInv.entryOk {s : State} (h : RaInv s) {k : Key} (hv : (s.raAt k).valid = true) : EntryOk s k :=
  ⟨h.len_le k hv, h.written k hv, h.typ_ne k hv⟩

theorem RaInv.of_entries {s : State} (h : ∀ k, (s.raAt k).valid = true → EntryOk s k) : RaInv s :=
  ⟨fun k hv => (h k hv).len_le, fun k hv => (h k hv).written, fun k hv => (h k hv).typ_ne⟩

/-- An entry's part of the invariant reads the parameters, its registers and its buffer. -/
theorem EntryOk.of_eq {s u : State} {k : Key} (h : EntryOk s k) (hpar : u.par = s.par) (hra : u.raAt k = s.raAt k)
    (hrab : u.rabAt k = s.rabAt k) : EntryOk u k where
  len_le := by rw [hra, hpar]; exact h.len_le
  written := by rw [hra, rabRead, hrab]; exact h.written
  typ_ne := h.typ_ne

/-- The table's invariant reads the parameters, RA and RAB. -/
theorem RaInv.of_eq {s u : State} (h : RaInv s) (hpar : u.par = s.par) (hra : ∀ k, u.raAt k = s.raAt k)
    (hrab : ∀ k, u.rabAt k = s.rabAt k) : RaInv u :=
  RaInv.of_entries fun k hv => (h.entryOk (hra k ▸ hv)).of_eq hpar (hra k) (hrab k)

/-- The invariant of a send reads the parameters, the retry limit, the slot's expected type, TX and TXB. -/
theorem SendInv.of_eq {s u : State} (h : SendInv s) (hpar : u.par = s.par) (hcfg : u.cfg = s.cfg)
    (hack : u.ack.expected = s.ack.expected) (htx : u.tx = s.tx) (htxb : u.txb = s.txb) : SendInv u where
  typ_ne := htx ▸ h.typ_ne
  single := htx ▸ h.single
  multi := htx ▸ h.multi
  slen_le := by rw [htx, hpar]; exact h.slen_le
  written := by rw [htx, txbRead, htxb]; exact h.written
  idx_lt := htx ▸ h.idx_lt
  retries_le := by rw [htx, hcfg]; exact h.retries_le
  wait := by rw [htx, hcfg]; exact h.wait
  armed := by rw [htx, hcfg, hack]; exact h.armed

/-- A state that differs outside what the invariant reads: the registry, ACK.satisfied, the record of the outputs, the
counter of free values and the inputs. -/
theorem BlockInv.of_eq {s u : State} (h : BlockInv s) (hpar : u.par = s.par) (hcfg : u.cfg = s.cfg)
    (hack : u.ack.expected = s.ack.expected) (htx : u.tx = s.tx) (htxb : u.txb = s.txb) (hra : ∀ k, u.raAt k = s.raAt k)
    (hrab : ∀ k, u.rabAt k = s.rabAt k) : BlockInv u where
  par := hpar ▸ h.par
  mem := h.mem.of_eq hpar hrab htxb
  ra := h.ra.of_eq hpar hra hrab
  state := htx ▸ h.state
  send hb := (h.send (htx ▸ hb)).of_eq hpar hcfg hack htx htxb

/-- A write within RA_CAP keeps the memories' invariant (R60). -/
theorem MemInv.writeRab {s : State} (h : MemInv s) {k : Key} {off : Nat} {bs : List Byte}
    (hfits : ∀ c ∈ s.par.raCap, off + bs.length ≤ c) : MemInv (s.setRab k ((s.rabAt k).writeBytes off bs)) where
  rab_wf j := by
    rw [State.rabAt_setRab]
    split
    · exact Memory.wf_writeBytes (h.rab_wf k) off bs
    · exact h.rab_wf j
  txb_wf := h.txb_wf
  rab_range j x hx c hc := by
    rw [State.rabAt_setRab] at hx
    split at hx
    · rcases Memory.mem_writeBytes hx with ⟨-, hlt⟩ | hx
      · exact Nat.lt_of_lt_of_le hlt (hfits c hc)
      · exact h.rab_range k x hx c hc
    · exact h.rab_range j x hx c hc
  txb_range := h.txb_range

/-- A write from the start of TXB within its TX_CAP + 1 bytes keeps the memories' invariant (R60). -/
theorem MemInv.writeTxb {s : State} (h : MemInv s) {bs : List Byte} (hfits : bs.length ≤ s.par.txCap + 1) :
    MemInv (s.setTxb (s.txb.writeBytes 0 bs)) where
  rab_wf := h.rab_wf
  txb_wf := Memory.wf_writeBytes h.txb_wf 0 bs
  rab_range := h.rab_range
  txb_range c hc := by
    rcases Memory.mem_writeBytes hc with ⟨-, hlt⟩ | hc
    · rw [Nat.zero_add] at hlt; exact Nat.lt_of_lt_of_le hlt hfits
    · exact h.txb_range c hc

/-! ## The invariant through the updates of the state -/

section
variable {s : State} (h : BlockInv s)
include h

theorem BlockInv.emit (e : Event) : BlockInv (s.emit e) :=
  h.of_eq rfl rfl rfl rfl rfl (fun _ => rfl) fun _ => rfl

theorem BlockInv.setFnOut (r : FnResult) : BlockInv (s.setFnOut r) :=
  h.of_eq rfl rfl rfl rfl rfl (fun _ => rfl) fun _ => rfl

theorem BlockInv.nextFree : BlockInv s.nextFree :=
  h.of_eq rfl rfl rfl rfl rfl (fun _ => rfl) fun _ => rfl

theorem BlockInv.setEnv (e : Env) : BlockInv (s.setEnv e) :=
  h.of_eq rfl rfl rfl rfl rfl (fun _ => rfl) fun _ => rfl

theorem BlockInv.setReg (t : TypeId) (e : RegEntry) : BlockInv (s.setReg t e) :=
  h.of_eq rfl rfl rfl rfl rfl (fun _ => rfl) fun _ => rfl

theorem BlockInv.setSatisfied (b : Bool) : BlockInv (s.setAck { s.ack with satisfied := b }) :=
  h.of_eq rfl rfl rfl rfl rfl (fun _ => rfl) fun _ => rfl

/-- The retry limit is written with no send in progress (R170). -/
theorem BlockInv.setCfg (hidle : s.tx.state = .idle) (c : Cfg) : BlockInv (s.setCfg c) where
  par := h.par
  mem := h.mem.of_eq rfl (fun _ => rfl) rfl
  ra := h.ra.of_eq rfl (fun _ => rfl) fun _ => rfl
  state := h.state
  send hb := absurd hidle hb

/-- New transmit registers leave only the invariant of the send to show. -/
theorem BlockInv.setTx {tx : Tx} (hstate : tx.state ≠ .reserved3) (hsend : tx.state ≠ .idle → SendInv (s.setTx tx)) :
    BlockInv (s.setTx tx) where
  par := h.par
  mem := h.mem.of_eq rfl (fun _ => rfl) rfl
  ra := h.ra.of_eq rfl (fun _ => rfl) fun _ => rfl
  state := hstate
  send := hsend

/-- The end of a send leaves no send in progress (R199). -/
theorem BlockInv.endSend : BlockInv s.endSend :=
  h.setTx (tx := { s.tx with state := .idle }) TxState.noConfusion fun hb => absurd rfl hb

theorem BlockInv.raise (x : SendFailure) : BlockInv (raise x s) := by
  rcases raise_cases x s with ⟨-, e⟩ | ⟨-, e⟩ | ⟨-, e⟩ <;> rw [e]
  · exact h.endSend.emit _
  · exact (h.endSend.emit _).emit _
  · exact h.emit _

theorem BlockInv.completeSend : BlockInv (completeSend s) := h.endSend.emit _

theorem BlockInv.dispatch (t : TypeId) (bytes : List Byte) : BlockInv (dispatch s t bytes) := by
  rcases dispatch_cases s t bytes with ⟨-, e⟩ | ⟨-, e⟩ <;> rw [e]
  · exact h.emit _
  · exact h

theorem BlockInv.emitAck (p : Prio) (a : Addr) (t : TypeId) : BlockInv (emitAck s p a t) := h.emit _

theorem BlockInv.finishMessage (p : Prio) (a : Addr) (t : TypeId) (acc : List Byte) :
    BlockInv (finishMessage s p a t acc) := by
  rw [Machine.finishMessage]
  split
  · exact (h.dispatch t _).emitAck p a t
  · exact h

/-- An entry is removed (R32). -/
theorem BlockInv.dropEntry (k : Key) : BlockInv (s.dropEntry k) where
  par := h.par
  mem := h.mem.of_eq rfl (fun _ => rfl) rfl
  ra := RaInv.of_entries fun j hj => by
    rw [State.raAt_dropEntry] at hj
    split at hj
    · cases hj
    · next hne => exact (h.ra.entryOk hj).of_eq rfl (by rw [State.raAt_dropEntry, if_neg hne]) rfl
  state := h.state
  send hb := (h.send hb).of_eq rfl rfl rfl rfl rfl

/-- Bytes are written to the buffer of an entry that is set together with them: what the block needs is a write within
RA_CAP, and an entry that is as `EntryOk` says. -/
theorem BlockInv.writeEntry {k : Key} {e : RaEntry} {off : Nat} {bs : List Byte}
    (hfits : ∀ c ∈ s.par.raCap, off + bs.length ≤ c)
    (hentry : e.valid = true → EntryOk ((s.setRa k e).setRab k ((s.rabAt k).writeBytes off bs)) k) :
    BlockInv ((s.setRa k e).setRab k ((s.rabAt k).writeBytes off bs)) where
  par := h.par
  mem := (h.mem.of_eq (u := s.setRa k e) rfl (fun _ => rfl) rfl).writeRab hfits
  ra := RaInv.of_entries fun j hj => by
    by_cases hk : k = j
    · subst hk
      exact hentry (by rwa [State.setRab_raAt, State.raAt_setRa_self] at hj)
    · rw [State.setRab_raAt, State.raAt_setRa_of_ne s e hk] at hj
      exact (h.ra.entryOk hj).of_eq rfl (State.raAt_setRa_of_ne s e hk) (State.rabAt_setRab_of_ne _ _ hk)
  state := h.state
  send hb := (h.send hb).of_eq rfl rfl rfl rfl rfl

end

/-- Every reset leaves a state with the invariant (R215). -/
theorem blockInv_afterReset {par : Params} (hpar : par.Ok) (n : Nat) : BlockInv (State.afterReset par n) where
  par := hpar
  mem :=
    { rab_wf := fun k => by rw [State.afterReset_rabAt]; exact List.Pairwise.nil
      txb_wf := List.Pairwise.nil
      rab_range := fun k x hx => absurd hx (by rw [State.afterReset_rabAt]; exact List.not_mem_nil)
      txb_range := fun _ hc => absurd hc List.not_mem_nil }
  ra := RaInv.of_entries fun k hv => absurd hv (by rw [State.afterReset_raAt_valid]; exact Bool.false_ne_true)
  state := TxState.noConfusion
  send hb := absurd rfl hb

/-! ## Every operation completes -/

/-- The operation answers a next state, and one with the invariant. -/
def Completes (o : Host.Outcome State Fault Refusal) : Prop := ∃ u, o = .next u ∧ BlockInv u

theorem Completes.ne_fault {o : Host.Outcome State Fault Refusal} (h : Completes o) (f : Fault) : o ≠ .fault f := by
  obtain ⟨u, rfl, -⟩ := h
  exact nofun

theorem completes_next {u : State} (h : BlockInv u) : Completes (.next u) := ⟨u, rfl, h⟩

/-- A write within RA_CAP to the buffer of an entry set just before. -/
theorem rabWrite_setRa_fits {s : State} {k : Key} {off : Nat} {bs : List Byte} (h : ∀ c ∈ s.par.raCap, off + bs.length ≤ c)
    (e : RaEntry) :
    rabWrite (s.setRa k e) k off bs = .ok ((s.setRa k e).setRab k ((s.rabAt k).writeBytes off bs)) :=
  rabWrite_fits (s := s.setRa k e) h

/-- An inbound payload of at most 8 bytes fits in an empty entry: RA_CAP is 62 at least. -/
theorem payload_fits {par : Params} (hpar : par.Ok) {n : Nat} (hn : n ≤ Config.maxDlc) : ∀ c ∈ par.raCap, n ≤ c := by
  obtain ⟨-, hcap, -⟩ := hpar
  intro c hc
  have := (hcap c hc).1
  have : Config.maxDlc = 8 := rfl
  omega

/-- The type field of a frame's key index is the frame's type (R84, R103). -/
theorem typ_kidx_packId (p : Prio) (a : Addr) (sq : SeqTag) (t : TypeId) : Key.typ (kidx (packId p a sq t)) = t := by
  have := t.isLt
  apply BitVec.eq_of_toNat_eq
  rw [Key.typ, toNat_slice, kidx_toNat, packId_toNat]
  omega

/-- What well-formedness says of a data frame (R41, R86). -/
theorem dataFrame_wellFormed {t : TypeId} {data : List Byte}
    (h : (decide (t ≠ Config.ackType) && decide (data.length ≤ Config.maxDlc)) = true) :
    t ≠ Config.ackType ∧ data.length ≤ Config.maxDlc := by
  simpa using h

section
variable {s : State} (h : BlockInv s)
include h

theorem execRxAck_completes (p : Prio) (a : Addr) (sq : SeqTag) (data : List Byte) (now : Time) :
    Completes (execRxAck p a sq data now s) := by
  refine completes_next ?_
  split
  · exact h.setSatisfied true
  · exact h

/-- RX_START writes at most 8 bytes from offset 0 (R122). -/
theorem execRxStart_completes (p : Prio) (a : Addr) {t : TypeId} (ht : t ≠ Config.ackType) {data : List Byte}
    (hdata : data.length ≤ Config.maxDlc) (now : Time) : Completes (execRxStart p a t data now s) := by
  have hcap := payload_fits h.par hdata
  have hfits : ∀ c ∈ s.par.raCap, 0 + data.length ≤ c := by simpa only [Nat.zero_add] using hcap
  rw [execRxStart, rabWrite_setRa_fits hfits]
  refine completes_next (h.writeEntry hfits fun _ => ⟨?_, ?_, ?_⟩)
  · simpa using hcap
  · simp [Memory.readBytes_writeBytes]
  · rwa [typ_kidx_packId]

/-- The bytes of a live entry and the payload appended to them can be read as one sequence (R31). -/
theorem rabRead_append_isSome {k : Key} (hv : (s.raAt k).valid = true) (data : List Byte) :
    (((s.rabAt k).writeBytes (s.raAt k).len data).readBytes 0 ((s.raAt k).len + data.length)).isSome = true := by
  obtain ⟨acc, hacc⟩ := Option.isSome_iff_exists.1 (h.ra.written k hv)
  rw [rabRead_append hacc]
  rfl

theorem execRxMiddle_completes (p : Prio) (a : Addr) (t : TypeId) (data : List Byte) (now : Time) :
    Completes (execRxMiddle p a t data now s) := by
  rw [execRxMiddle]
  generalize kidx (packId p a s.par.seqMiddle t) = k
  rcases lookup_cases s k now with ⟨-, e⟩ | ⟨-, -, e⟩ | ⟨hv, -, e⟩ <;> simp only [e]
  · exact completes_next h
  · exact completes_next (h.dropEntry k)
  · split
    · exact completes_next (h.dropEntry k)
    · next hcap =>
      have hfits := (wouldOverflow_eq_false_iff s k _).1 (Bool.eq_false_of_not_eq_true hcap)
      rw [rabWrite_setRa_fits hfits]
      refine completes_next (h.writeEntry hfits fun _ => ⟨?_, ?_, h.ra.typ_ne k hv⟩)
      · simpa using hfits
      · simpa using rabRead_append_isSome h hv data

theorem execRxEnd_completes (p : Prio) (a : Addr) (t : TypeId) (data : List Byte) (now : Time) :
    Completes (execRxEnd p a t data now s) := by
  rw [execRxEnd]
  generalize kidx (packId p a s.par.seqEnd t) = k
  rcases lookup_cases s k now with ⟨-, e⟩ | ⟨-, -, e⟩ | ⟨hv, -, e⟩ <;> simp only [e]
  · exact completes_next h
  · exact completes_next (h.dropEntry k)
  · split
    · exact completes_next (h.dropEntry k)
    · next hcap =>
      have hfits := (wouldOverflow_eq_false_iff s k _).1 (Bool.eq_false_of_not_eq_true hcap)
      have hinv := h.writeEntry (k := k) (e := { s.raAt k with valid := false }) hfits fun hf => nomatch hf
      obtain ⟨acc, hacc⟩ := Option.isSome_iff_exists.1 (rabRead_append_isSome h hv data)
      rw [State.dropEntry, rabWrite_setRa_fits hfits]
      simp only [rabRead_setRab, hacc]
      split
      · exact completes_next hinv
      · exact completes_next (hinv.finishMessage p a t acc)

theorem execCfgRetry_completes (limit : Retry) : Completes (execCfgRetry limit s) := by
  rw [execCfgRetry]
  split
  · exact completes_next h
  · next hb => exact completes_next (h.setCfg ((txBusy_eq_false_iff s).1 (Bool.eq_false_of_not_eq_true hb)) _)

theorem execReset_completes : Completes (execReset s) :=
  completes_next ((blockInv_afterReset h.par (s.freeCount + 1)).of_eq rfl rfl rfl rfl rfl (fun _ => rfl) fun _ => rfl)

theorem execCksumOk_completes {acc : List Byte} (hacc : 1 ≤ acc.length) : Completes (execCksumOk acc s) := by
  have hne : acc ≠ [] := List.ne_nil_of_length_pos hacc
  rw [execCksumOk, ← List.dropLast_append_getLast hne, cksumOk_append]
  exact completes_next (h.setFnOut _)

theorem execExpired_completes (k : Key) (now : Time) : Completes (execExpired k now s) := by
  rw [execExpired]
  split
  · exact completes_next (h.setFnOut _)
  · exact completes_next (h.setFnOut _).nextFree

theorem execLookup_completes (k : Key) (now : Time) : Completes (execLookup k now s) := by
  refine completes_next (BlockInv.setFnOut ?_ _)
  rcases lookup_cases s k now with ⟨-, e⟩ | ⟨-, -, e⟩ | ⟨-, -, e⟩ <;> rw [e]
  · exact h
  · exact h.dropEntry k
  · exact h

end

/-! ## A send from its start to its end -/

/-- Arming writes the slot alone, and a multi-frame message in retry-mode is the one it then expects (R141, R25). -/
theorem armSlot_eq_setAck (s : State) (t : TypeId) (multi : Bool) :
    ∃ ack : AckSlot, armSlot s t multi = s.setAck ack ∧
      (multi = true → 0 < s.cfg.retryLimit.toNat → ack.expected = t) := by
  rw [armSlot]
  split
  · exact ⟨_, rfl, fun _ _ => rfl⟩
  · next hoff =>
    exact ⟨s.ack, rfl, fun hm hr => absurd (Bool.and_eq_true_iff.2 ⟨hm, (retryMode_iff s).2 hr⟩) hoff⟩

/-- A message within TX_CAP has a stream within the TX_CAP + 1 bytes of TXB (R60). -/
theorem stream_length_le {m : List Byte} {cap : Nat} (hm : m.length ≤ cap) : (stream m).length ≤ cap + 1 := by
  rw [stream_length]
  split <;> omega

/-- The registers that a SEND loads are those of a send in progress (R141). -/
theorem sendInv_start {s : State} {t : TypeId} {m : List Byte} (hpar : s.par.Ok) (p : Prio) (a : Addr)
    (ht : t ≠ Config.ackType) (hm : m.length ≤ s.par.txCap) {ack : AckSlot}
    (hack : isMulti m = true → 0 < s.cfg.retryLimit.toNat → ack.expected = t) :
    SendInv (((s.setTx (startTx s.tx p a t m)).setAck ack).setTxb (s.txb.writeBytes 0 (stream m))) := by
  obtain ⟨-, -, -, hcap⟩ := hpar
  have hlen := stream_length_le hm
  have hslen : (toLen (stream m).length).toNat = (stream m).length := toLen_toNat (by omega)
  have hcount : (toLen (frameCount m)).toNat = frameCount m := toLen_toNat (by rw [frameCount]; split <;> omega)
  exact
    { typ_ne := ht
      single := fun (hs : isMulti m = false) => by
        change (toLen (frameCount m)).toNat = 1 ∧ (toLen (stream m).length).toNat ≤ 8
        have hshort := mt (isMulti_iff m).2 (hs ▸ Bool.false_ne_true)
        rw [hcount, hslen, frameCount, stream_length, hs]
        exact ⟨rfl, Nat.not_lt.1 hshort⟩
      multi := fun (hs : isMulti m = true) => by
        change 10 ≤ (toLen (stream m).length).toNat ∧
          (toLen (frameCount m)).toNat = ((toLen (stream m).length).toNat + 7) / 8
        rw [hcount, hslen, frameCount, stream_length, hs]
        exact ⟨Nat.succ_le_succ ((isMulti_iff m).1 hs), rfl⟩
      slen_le := hslen.trans_le hlen
      written := by
        change ((s.txb.writeBytes 0 (stream m)).readBytes 0 (toLen (stream m).length).toNat).isSome = true
        rw [hslen, Memory.readBytes_writeBytes]
        rfl
      idx_lt := by
        change 0 < (toLen (frameCount m)).toNat
        rw [hcount, frameCount]
        split <;> omega
      retries_le := Nat.zero_le _
      wait := TxState.noConfusion
      armed := hack }

theorem execSend_completes {s : State} (h : BlockInv s) (p : Prio) (a : Addr) (t : TypeId) (m : List Byte) :
    Completes (execSend p a t m s) := by
  rw [execSend]
  split
  · exact completes_next h
  split
  · exact completes_next (h.raise .rejected)
  · next hpass =>
    obtain ⟨ht, hm⟩ := (sendRejected_eq_false_iff s t m).1 (Bool.eq_false_of_not_eq_true hpass)
    obtain ⟨ack, harm, hack⟩ := armSlot_eq_setAck (s.setTx (startTx s.tx p a t m)) t (isMulti m)
    have hfits : (stream m).length ≤ s.par.txCap + 1 := stream_length_le hm
    rw [harm, txbWrite_fits (s := (s.setTx (startTx s.tx p a t m)).setAck ack) hfits]
    exact completes_next
      { par := h.par
        mem := (h.mem.of_eq (u := (s.setTx (startTx s.tx p a t m)).setAck ack) rfl (fun _ => rfl) rfl).writeTxb hfits
        ra := h.ra.of_eq rfl (fun _ => rfl) fun _ => rfl
        state := TxState.noConfusion
        send := fun _ => sendInv_start h.par p a ht hm hack }

/-- The fragment at TX.idx begins inside the stream. -/
theorem SendInv.offset_le {s : State} (h : SendInv s) : 8 * s.tx.idx.toNat ≤ s.tx.slen.toNat := by
  have hidx := h.idx_lt
  cases hm : s.tx.multi
  · have := (h.single hm).1
    omega
  · have := (h.multi hm).2
    omega

/-- The bytes of the fragment at TX.idx were written, so there is a frame to transmit (R146). -/
theorem SendInv.currentFrame {s : State} (h : SendInv s) : ∃ f, currentFrame s = some f := by
  obtain ⟨bs, hbs⟩ := Option.isSome_iff_exists.1 h.written
  have hoff := h.offset_le
  have hpart : 8 * s.tx.idx.toNat + fragLen s.tx.slen.toNat s.tx.idx.toNat ≤ s.tx.slen.toNat := by
    rw [fragLen]
    omega
  have hread := Memory.readBytes_part hbs hpart
  rw [Nat.zero_add] at hread
  rw [Machine.currentFrame, txbRead, hread]
  exact ⟨_, rfl⟩

/-- A send in progress whose next fragment, retransmission count or state is another one. -/
theorem SendInv.setTx {s : State} (h : SendInv s) {idx : Len} {retries : Retry} {st : TxState} {start : Time}
    (hidx : idx.toNat < s.tx.nfrag.toNat) (hretries : retries.toNat ≤ s.cfg.retryLimit.toNat)
    (hwait : st = .waitAck → s.tx.multi = true ∧ 0 < s.cfg.retryLimit.toNat) :
    SendInv (s.setTx { s.tx with idx := idx, retries := retries, state := st, waitStart := start }) where
  typ_ne := h.typ_ne
  single := h.single
  multi := h.multi
  slen_le := h.slen_le
  written := h.written
  idx_lt := hidx
  retries_le := hretries
  wait := hwait
  armed := h.armed

/-- One more than a count that a bound of the same width exceeds. -/
theorem toNat_add_one_of_lt {w : Nat} {x y : BitVec w} (h : x.toNat < y.toNat) : (x + 1).toNat = x.toNat + 1 := by
  have := y.isLt
  have hone : (1 : BitVec w).toNat = 1 := by simpa using Nat.mod_eq_of_lt (show 1 < 2 ^ w by omega)
  rw [BitVec.toNat_add_of_lt (by rw [hone]; omega), hone]

theorem BlockInv.afterFragment {s : State} (h : BlockInv s) (hs : s.tx.state = .sending) (now : Time) (txOk : Bool) :
    BlockInv (afterFragment s now txOk) := by
  have hsend := h.send (hs ▸ TxState.noConfusion)
  rw [Machine.afterFragment]
  split
  · exact h.raise .failTransport
  split
  · next hmore =>
    have hlt := (moreFragments_iff s.tx).1 hmore
    refine h.setTx h.state fun _ => hsend.setTx ?_ hsend.retries_le hsend.wait
    rwa [toNat_add_one_of_lt (y := s.tx.nfrag) (by omega)]
  split
  · exact h.completeSend
  · next hret =>
    have hret : s.tx.multi = true ∧ 0 < s.cfg.retryLimit.toNat := by
      simpa [retryMode_iff] using hret
    exact h.setTx TxState.noConfusion fun _ => hsend.setTx hsend.idx_lt hsend.retries_le fun _ => hret

theorem execTxFrag_completes {s : State} (h : BlockInv s) (now : Time) (txOk : Bool) : Completes (execTxFrag now txOk s) := by
  rw [execTxFrag]
  split
  · next hs =>
    obtain ⟨f, hf⟩ := (h.send (hs ▸ TxState.noConfusion)).currentFrame
    rw [hf]
    exact completes_next ((h.emit _).afterFragment hs now txOk)
  · exact completes_next h

theorem BlockInv.pollAck {s : State} (h : BlockInv s) (hs : s.tx.state = .waitAck) (now : Time) : BlockInv (pollAck s now) := by
  have hsend := h.send (hs ▸ TxState.noConfusion)
  rw [Machine.pollAck]
  split
  · exact h.completeSend
  split
  · split
    · next hretry =>
      have hlt := (retryAllowed_iff s).1 hretry
      refine h.setTx TxState.noConfusion fun _ => hsend.setTx (Nat.zero_lt_of_lt hsend.idx_lt) ?_ TxState.noConfusion
      rwa [toNat_add_one_of_lt hlt]
    · exact h.raise .failNoack
  · exact h

theorem execTxWait_completes {s : State} (h : BlockInv s) (now : Time) : Completes (execTxWait now s) := by
  rw [execTxWait]
  split
  · next hs => exact completes_next (h.pollAck hs now)
  · exact completes_next h

/-! ## Admitted operations, what a port presents, and runs -/

/-- A well-formed operation other than the step of TX.state = 3, which has no meaning (R90). -/
def Admitted (i : Instr) : Prop := i.WellFormed ∧ i ≠ .txStateReserved3

/-- R11: from a state with the invariant an admitted operation completes, and keeps the invariant. -/
theorem exec_completes {i : Instr} {s : State} (hi : Admitted i) (h : BlockInv s) : Completes (exec i s) := by
  obtain ⟨hwf, hne⟩ := hi
  cases i with
  | rxAck p a sq data now => exact execRxAck_completes h p a sq data now
  | rxStart p a t data now =>
    obtain ⟨ht, hdata⟩ := dataFrame_wellFormed hwf
    exact execRxStart_completes h p a ht hdata now
  | rxMiddle p a t data now => exact execRxMiddle_completes h p a t data now
  | rxEnd p a t data now => exact execRxEnd_completes h p a t data now
  | rxSingle p a t data now => exact completes_next (h.dispatch t data)
  | nop => exact completes_next h
  | cfgRetry limit => exact execCfgRetry_completes h limit
  | reg t size => exact completes_next (h.setReg t _)
  | send p a t m => exact execSend_completes h p a t m
  | reset => exact execReset_completes h
  | cmdReserved5 => exact completes_next h
  | cmdReserved6 => exact completes_next h
  | cmdReserved7 => exact completes_next h
  | txIdle => exact completes_next h
  | txFrag now txOk => exact execTxFrag_completes h now txOk
  | txWait now => exact execTxWait_completes h now
  | txStateReserved3 => exact absurd rfl hne
  | enc p a sq t => exact completes_next (h.setFnOut _)
  | dec id => exact completes_next (h.setFnOut _)
  | rkey id => exact completes_next (h.setFnOut _)
  | kidx id => exact completes_next (h.setFnOut _)
  | crc8Step c b => exact completes_next (h.setFnOut _)
  | crc8 bytes => exact completes_next (h.setFnOut _)
  | frag p a t m => exact completes_next (h.setFnOut _)
  | cksumOk acc => exact execCksumOk_completes h (of_decide_eq_true hwf)
  | expired k now => exact execExpired_completes h k now
  | lookup k now => exact execLookup_completes h k now
  | dispatch t bytes => exact completes_next (h.dispatch t bytes)
  | ackEmit p a t => exact completes_next (h.emitAck p a t)

/-- The receive operation of a frame of at most 8 bytes: the type is 7 for RX_ACK alone (R86). -/
theorem classify_admitted (par : Params) (id : Ident) {data : List Byte} (hdata : data.length ≤ Config.maxDlc) (now : Time) :
    Admitted (classify par id data now) := by
  rw [classify]
  split
  · exact ⟨decide_eq_true hdata, Instr.noConfusion⟩
  · next ht =>
    have hframe := Bool.and_eq_true_iff.2 ⟨decide_eq_true ht, decide_eq_true hdata⟩
    split
    · exact ⟨hframe, Instr.noConfusion⟩
    split
    · exact ⟨hframe, Instr.noConfusion⟩
    split
    · exact ⟨hframe, Instr.noConfusion⟩
    · exact ⟨hframe, Instr.noConfusion⟩

theorem decodeRx_admitted {par : Params} {bytes : List Byte} {now : Time} {i : Instr}
    (h : decodeRx par bytes now = .ok i) : Admitted i := by
  unfold decodeRx at h
  split at h
  · split at h
    · split at h
      · cases h
      · next hlen =>
        split at h
        · next hdata =>
          cases h
          exact classify_admitted par _ (hdata.trans_le (Nat.not_lt.1 hlen)) now
        · cases h
    · cases h
  · cases h

theorem decodeBare_eq_ok {i j : Instr} {operands : List Byte} (h : decodeBare j operands = .ok i) : i = j := by
  cases operands <;> cases h
  rfl

theorem decodeCfgRetry_admitted {operands : List Byte} {i : Instr} (h : decodeCfgRetry operands = .ok i) : Admitted i := by
  unfold decodeCfgRetry at h
  split at h <;> cases h
  exact ⟨rfl, Instr.noConfusion⟩

theorem decodeReg_admitted {operands : List Byte} {i : Instr} (h : decodeReg operands = .ok i) : Admitted i := by
  unfold decodeReg at h
  split at h
  · split at h <;> cases h
    exact ⟨rfl, Instr.noConfusion⟩
  · cases h

/-- The length of a SEND's message is that of a LEN_W operand (R87). -/
theorem decodeSend_admitted {operands : List Byte} {i : Instr} (h : decodeSend operands = .ok i) : Admitted i := by
  unfold decodeSend at h
  split at h
  · split at h
    · next len _ _ _ _ =>
      split at h
      · next hm =>
        cases h
        exact ⟨decide_eq_true (hm ▸ len.isLt), Instr.noConfusion⟩
      · cases h
    · cases h
  · cases h

theorem decodeCmd_admitted {bytes : List Byte} {i : Instr} (h : decodeCmd bytes = .ok i) : Admitted i := by
  have hbare : ∀ {j : Instr} {operands : List Byte}, decodeBare j operands = .ok i → Admitted j → Admitted i :=
    fun hd hj => decodeBare_eq_ok hd ▸ hj
  unfold decodeCmd at h
  split at h
  · cases h
  split at h
  · exact hbare h ⟨rfl, Instr.noConfusion⟩
  split at h
  · exact decodeCfgRetry_admitted h
  split at h
  · exact decodeReg_admitted h
  split at h
  · exact decodeSend_admitted h
  split at h
  · exact hbare h ⟨rfl, Instr.noConfusion⟩
  split at h
  · exact hbare h ⟨rfl, Instr.noConfusion⟩
  split at h
  · exact hbare h ⟨rfl, Instr.noConfusion⟩
  split at h
  · exact hbare h ⟨rfl, Instr.noConfusion⟩
  · cases h

theorem decodeIdCall_admitted {f : Ident → Instr} (hf : ∀ id, Admitted (f id)) {bytes : List Byte} {i : Instr}
    (h : decodeIdCall f bytes = .ok i) : Admitted i := by
  unfold decodeIdCall at h
  split at h
  · split at h <;> cases h
    exact hf _
  · cases h

theorem decodeFn_admitted {f : FnPort} {bytes : List Byte} {i : Instr} (h : decodeFn f bytes = .ok i) : Admitted i := by
  cases f with
  | enc =>
    simp only [decodeFn] at h
    split at h <;> cases h
    exact ⟨rfl, Instr.noConfusion⟩
  | dec => exact decodeIdCall_admitted (fun _ => ⟨rfl, Instr.noConfusion⟩) h
  | rkey => exact decodeIdCall_admitted (fun _ => ⟨rfl, Instr.noConfusion⟩) h
  | kidx => exact decodeIdCall_admitted (fun _ => ⟨rfl, Instr.noConfusion⟩) h
  | crc8Step =>
    simp only [decodeFn] at h
    split at h <;> cases h
    exact ⟨rfl, Instr.noConfusion⟩
  | crc8 =>
    cases h
    exact ⟨rfl, Instr.noConfusion⟩

/-- What a port holds is an admitted operation or none; the transmit engine's step is none where TX.state is 3. -/
theorem decode_admitted {par : Params} {pkt : Packet} {now : Time} {txOk : Bool} {i : Instr} (hport : pkt.port ≠ .txe)
    (h : decode par pkt now txOk = .ok i) : Admitted i := by
  obtain ⟨port, bytes⟩ := pkt
  cases port with
  | cmd => exact decodeCmd_admitted h
  | rx => exact decodeRx_admitted h
  | txe => exact absurd rfl hport
  | fn f => exact decodeFn_admitted h

theorem txStep_admitted {st : TxState} (hst : st ≠ .reserved3) (now : Time) (txOk : Bool) : Admitted (txStep st now txOk) := by
  cases st with
  | idle => exact ⟨rfl, Instr.noConfusion⟩
  | sending => exact ⟨rfl, Instr.noConfusion⟩
  | waitAck => exact ⟨rfl, Instr.noConfusion⟩
  | reserved3 => exact absurd rfl hst

/-- The packet of TX.state decodes to the step that TX.state selects (R88). -/
theorem decode_stateCode (par : Params) (st : TxState) (now : Time) (txOk : Bool) :
    decode par { port := .txe, bytes := [st.code.setWidth 8] } now txOk = .ok (txStep st now txOk) := by
  cases st <;> rfl

/-! ### The next operation, for each agent -/

theorem fetched_of_decode {pkt : Packet} {t : Turn} {s : State} {i : Instr} (h : decode s.par pkt t.now t.txOk = .ok i) :
    fetched pkt t s = .op i s := by
  rw [fetched, h]

theorem fetchCommand_of_decode {bytes : List Byte} {rest : List (List Byte)} {t : Turn} {s : State} {i : Instr}
    (h : decode s.par { port := .cmd, bytes := bytes } t.now t.txOk = .ok i) :
    fetchCommand bytes rest t s = .op i (if isHeld s i then s else s.setEnv { s.env with commands := rest }) := by
  rw [fetchCommand, h]

/-- Whether a command is held depends on TX.state alone, not on the inputs. -/
theorem isHeld_setEnv (s : State) (e : Env) (i : Instr) : isHeld (s.setEnv e) i = isHeld s i := by
  cases i <;> rfl

section
variable {s : State} {t : Turn} {turns : List Turn} (ht : s.env.turns = t :: turns)
include ht

theorem fetch_host (ha : t.agent = .host) {bytes : List Byte} {rest : List (List Byte)}
    (hc : s.env.commands = bytes :: rest) :
    fetch s = fetchCommand bytes rest t (s.setEnv { s.env with turns := turns }) := by
  simp only [fetch, ht, ha, hc]

theorem fetch_rxp (ha : t.agent = .rxp) {bytes : List Byte} {rest : List (List Byte)} (hf : s.env.frames = bytes :: rest) :
    fetch s = fetched { port := .rx, bytes := bytes } t (s.setEnv { s.env with turns := turns, frames := rest }) := by
  simp only [fetch, ht, ha, hf]
  rfl

theorem fetch_fn (ha : t.agent = .fn) {f : FnPort} {bytes : List Byte} {rest : List (FnPort × List Byte)}
    (hc : s.env.calls = (f, bytes) :: rest) :
    fetch s = fetched { port := .fn f, bytes := bytes } t (s.setEnv { s.env with turns := turns, calls := rest }) := by
  simp only [fetch, ht, ha, hc]
  rfl

theorem fetch_txe (ha : t.agent = .txe) :
    fetch s = .op (txStep s.tx.state t.now t.txOk) (s.setEnv { s.env with turns := turns }) := by
  simp only [fetch, ht, ha]
  exact fetched_of_decode (decode_stateCode ..)

theorem fetch_resetInput (ha : t.agent = .resetInput) :
    fetch s = .op .reset (s.setEnv { s.env with turns := turns }) := by
  simp only [fetch, ht, ha]

/-- A turn of an agent whose port is empty takes the turn alone. -/
theorem fetch_emptyPort
    (hport : (t.agent = .host ∧ s.env.commands = []) ∨ (t.agent = .rxp ∧ s.env.frames = []) ∨
      (t.agent = .fn ∧ s.env.calls = [])) :
    fetch s = .idle (s.setEnv { s.env with turns := turns }) := by
  rcases hport with ⟨ha, hp⟩ | ⟨ha, hp⟩ | ⟨ha, hp⟩ <;> simp only [fetch, ht, ha, hp]

end

theorem step_of_op {s u : State} {i : Instr} (h : fetch s = .op i u) : step s = exec i u := by
  rw [step, h]

/-- What is fetched in a state with the invariant: an admitted operation, and the invariant still holds. -/
def Fetched.Sound : Fetched → Prop
  | .idle u => BlockInv u
  | .op i u => Admitted i ∧ BlockInv u
  | .bad _ => True

theorem fetched_sound {s : State} (h : BlockInv s) {pkt : Packet} (hport : pkt.port ≠ .txe) (t : Turn) :
    (fetched pkt t s).Sound := by
  cases hd : decode s.par pkt t.now t.txOk with
  | ok i => rw [fetched_of_decode hd]; exact ⟨decode_admitted hport hd, h⟩
  | error e => rw [fetched, hd]; trivial

theorem fetchCommand_sound {s : State} (h : BlockInv s) (bytes : List Byte) (rest : List (List Byte)) (t : Turn) :
    (fetchCommand bytes rest t s).Sound := by
  cases hd : decode s.par { port := .cmd, bytes := bytes } t.now t.txOk with
  | ok i =>
    rw [fetchCommand_of_decode hd]
    refine ⟨decode_admitted Port.noConfusion hd, ?_⟩
    split
    · exact h
    · exact h.setEnv _
  | error e => rw [fetchCommand, hd]; trivial

theorem fetch_sound {s : State} (h : BlockInv s) : (fetch s).Sound := by
  cases ht : s.env.turns with
  | nil => simp only [fetch, ht]; exact h
  | cons t turns =>
    cases ha : t.agent with
    | host =>
      cases hc : s.env.commands with
      | nil => rw [fetch_emptyPort ht (.inl ⟨ha, hc⟩)]; exact h.setEnv _
      | cons bytes rest => rw [fetch_host ht ha hc]; exact fetchCommand_sound (h.setEnv _) bytes rest t
    | rxp =>
      cases hf : s.env.frames with
      | nil => rw [fetch_emptyPort ht (.inr (.inl ⟨ha, hf⟩))]; exact h.setEnv _
      | cons bytes rest => rw [fetch_rxp ht ha hf]; exact fetched_sound (h.setEnv _) Port.noConfusion t
    | txe => rw [fetch_txe ht ha]; exact ⟨txStep_admitted h.state t.now t.txOk, h.setEnv _⟩
    | fn =>
      cases hc : s.env.calls with
      | nil => rw [fetch_emptyPort ht (.inr (.inr ⟨ha, hc⟩))]; exact h.setEnv _
      | cons call rest => rw [fetch_fn ht ha hc]; exact fetched_sound (h.setEnv _) Port.noConfusion t
    | resetInput => rw [fetch_resetInput ht ha]; exact ⟨⟨rfl, Instr.noConfusion⟩, h.setEnv _⟩

/-- R11 for a step: it completes and keeps the invariant, or what was presented is no operation. -/
theorem step_completes_or_undecodable {s : State} (h : BlockInv s) :
    Completes (step s) ∨ ∃ e, step s = .refused (.undecodable e) := by
  have hsound := fetch_sound h
  rw [step]
  cases hf : fetch s with
  | idle u => rw [hf] at hsound; exact .inl (completes_next hsound)
  | op i u =>
    rw [hf] at hsound
    obtain ⟨hi, hu⟩ := hsound
    exact .inl (exec_completes hi hu)
  | bad e => exact .inr ⟨e, rfl⟩

theorem exec_ne_fault {i : Instr} {s : State} (hi : i.WellFormed) (h : BlockInv s) (f : Fault) : exec i s ≠ .fault f := by
  by_cases hne : i = .txStateReserved3
  · subst hne
    exact nofun
  · exact (exec_completes ⟨hi, hne⟩ h).ne_fault f

theorem step_ne_fault {s : State} (h : BlockInv s) (f : Fault) : step s ≠ .fault f := by
  rcases step_completes_or_undecodable h with hc | ⟨e, he⟩
  · exact hc.ne_fault f
  · rw [he]
    exact nofun

theorem run_succ_of_next {M : Host.Core} {s u : M.State} (h : M.step s = .next u) (n : Nat) :
    M.run (n + 1) s = M.run n u := by
  rw [Host.Core.run, h]

theorem run_succ_of_refused {M : Host.Core} {s : M.State} {r : M.Refusal} (h : M.step s = .refused r) (n : Nat) :
    M.run (n + 1) s = .refused r := by
  rw [Host.Core.run, h]

/-- The invariant carries a run past every step that completes, and a refusal ends it. -/
theorem run_ne_fault (n : Nat) {s : State} (h : BlockInv s) (f : Fault) : core.run n s ≠ .fault f := by
  induction n generalizing s with
  | zero => exact nofun
  | succ n ih =>
    rcases step_completes_or_undecodable h with ⟨u, hu, hinv⟩ | ⟨e, he⟩
    · rw [run_succ_of_next (M := core) hu]
      exact ih hinv
    · rw [run_succ_of_refused (M := core) he]
      exact nofun

/-- Settles O58: an admitted operation and a step that decodes complete, and TX_STATE_RESERVED_3 is refused. -/
theorem noOperationFaults : Obligations.NoOperationFaults :=
  ⟨fun _ _ f hi h => exec_ne_fault hi h f, fun _ h f => step_ne_fault h f⟩

/-- Settles O59: by induction on the number of steps, with the invariant kept by each. -/
theorem runsStopOnlyOnIllegalInput : Obligations.RunsStopOnlyOnIllegalInput := by
  refine ⟨fun n s h f => run_ne_fault n h f, fun s r h hr => ?_⟩
  rcases step_completes_or_undecodable h with ⟨u, hu, -⟩ | ⟨e, he⟩
  · rw [hu] at hr
    cases hr
  · rw [he] at hr
    cases hr
    exact ⟨e, rfl⟩

/-- Settles O16: one case for each agent, by what is fetched for it. -/
theorem stepRunsPresentedOperation : Obligations.StepRunsPresentedOperation := by
  intro s t turns i ht
  refine ⟨fun bytes rest ha hc hd => ?_, fun bytes rest ha hf hd => ?_, fun ha => step_of_op (fetch_txe ht ha),
    fun f bytes rest ha hc hd => ?_, fun ha => step_of_op (fetch_resetInput ht ha)⟩
  · rw [step_of_op ((fetch_host ht ha hc).trans (fetchCommand_of_decode hd)), isHeld_setEnv]
    cases isHeld s i
    · rfl
    · rw [← hc]; rfl
  · exact step_of_op ((fetch_rxp ht ha hf).trans (fetched_of_decode hd))
  · exact step_of_op ((fetch_fn ht ha hc).trans (fetched_of_decode hd))

end Sys2Proof.Machine
end

section
/-! PROOFS. The invariant kept by every operation and every step (spec/10_state.md R26 to R33, R60), and the steps with
nothing presented (R41, R173). -/

namespace Sys2Proof.Machine

theorem Completes.inv {o : Host.Outcome State Fault Refusal} {u : State} (h : Completes o) (ho : o = .next u) : BlockInv u := by
  obtain ⟨v, hv, hinv⟩ := h
  cases hv.symm.trans ho
  exact hinv

/-- An operation that completes is not the step of TX.state = 3 (R90). -/
theorem exec_next_ne_reserved3 {i : Instr} {s u : State} (hu : exec i s = .next u) : i ≠ .txStateReserved3 := by
  rintro rfl
  cases hu

theorem step_of_idle {s u : State} (h : fetch s = .idle u) : step s = .next u := by
  rw [step, h]

theorem fetch_noTurn {s : State} (ht : s.env.turns = []) : fetch s = .idle s := by
  simp only [fetch, ht]

/-- Settles O56: an operation that completes is an admitted one, and every admitted operation completes in a state with the
invariant. -/
theorem operationsKeepInvariant : Obligations.OperationsKeepInvariant :=
  fun _ _ _ hwf h hu => (exec_completes ⟨hwf, exec_next_ne_reserved3 hu⟩ h).inv hu

/-- Settles O57: a step completes in a state with the invariant, or it is refused. -/
theorem stepKeepsInvariant : Obligations.StepKeepsInvariant := by
  intro s u h hu
  rcases step_completes_or_undecodable h with hc | ⟨e, he⟩
  · exact hc.inv hu
  · cases he.symm.trans hu

/-- Settles O17: what is fetched is that nothing is presented. -/
theorem stepWithNothingPresented : Obligations.StepWithNothingPresented :=
  ⟨fun _ ht => step_of_idle (fetch_noTurn ht), fun _ _ _ ht hport => step_of_idle (fetch_emptyPort ht hport)⟩

end Sys2Proof.Machine
end

section
/-! PROOFS. What each operation can write (spec/10_state.md R20, R25): one effect for each kind of operation, and the writers
of each element of the state. -/

namespace Sys2Proof.Machine

/-- The state with another record of the outputs and another count of free values: the MODEL's own fields, none of them an
element of R20. -/
def State.withRecord (s : State) (trace : List Event) (fnOut : Option FnResult) (freeCount : Nat) : State :=
  { s with trace := trace, fnOut := fnOut, freeCount := freeCount }

section
variable (s : State) (tr : List Event) (fn : Option FnResult) (n : Nat)

@[simp] theorem State.withRecord_par : (s.withRecord tr fn n).par = s.par := rfl
@[simp] theorem State.withRecord_cfg : (s.withRecord tr fn n).cfg = s.cfg := rfl
@[simp] theorem State.withRecord_ack : (s.withRecord tr fn n).ack = s.ack := rfl
@[simp] theorem State.withRecord_tx : (s.withRecord tr fn n).tx = s.tx := rfl
@[simp] theorem State.withRecord_txb : (s.withRecord tr fn n).txb = s.txb := rfl
@[simp] theorem State.withRecord_env : (s.withRecord tr fn n).env = s.env := rfl
@[simp] theorem State.withRecord_regAt (t : TypeId) : (s.withRecord tr fn n).regAt t = s.regAt t := rfl
@[simp] theorem State.withRecord_raAt (k : Key) : (s.withRecord tr fn n).raAt k = s.raAt k := rfl
@[simp] theorem State.withRecord_rabAt (k : Key) : (s.withRecord tr fn n).rabAt k = s.rabAt k := rfl

end

/-- A guarded operation answers a state exactly when its guard passes. -/
theorem outcome_eq_next {r : Except Fault State} {u : State} : outcome r = .next u ↔ r = .ok u := by
  cases r <;> simp [outcome]

/-- A buffer written with what it holds. -/
theorem State.setRab_rabAt (s : State) (k : Key) : s.setRab k (s.rabAt k) = s := by
  rw [State.setRab, State.rabAt, Vector.set_getElem_self]

/-- What an operation does to the elements of the state when it completes; what it records of its outputs is left open. -/
inductive Effect (s : State) : Instr → State → Prop where
  /-- No element is written. -/
  | quiet (i : Instr) (tr fn n) : Effect s i (s.withRecord tr fn n)
  | reset : Effect s .reset (resetState s)
  | cfgRetry (limit : Retry) : Effect s (.cfgRetry limit) (s.setCfg { s.cfg with retryLimit := limit })
  | reg (t : TypeId) (size : Len) : Effect s (.reg t size) (s.setReg t { valid := true, size := size })
  /-- A frame that matches the slot (R160). -/
  | rxAck (p a sq) (data : List Byte) (now) (hmatch : ackMatches s data = true) :
      Effect s (.rxAck p a sq data now) (s.setAck { s.ack with satisfied := true })
  /-- A SEND that starts; the slot is armed for a multi-frame message in retry-mode (R141, R25). -/
  | send (p a t m) (ack : AckSlot) (txb : Memory)
      (hack : ack = s.ack ∨ (isMulti m = true ∧ retryMode s = true ∧ ack = { expected := t, satisfied := false })) :
      Effect s (.send p a t m) (((s.setTx (startTx s.tx p a t m)).setAck ack).setTxb txb)
  | txFrag (now txOk) (st : TxState) (idx : Len) (start : Time) (tr fn n) :
      Effect s (.txFrag now txOk) ((s.setTx { s.tx with state := st, idx := idx, waitStart := start }).withRecord tr fn n)
  | txWait (now) (st : TxState) (idx : Len) (retries : Retry) (tr fn n) :
      Effect s (.txWait now) ((s.setTx { s.tx with state := st, idx := idx, retries := retries }).withRecord tr fn n)
  /-- The entry of the frame's key is created at `now` (R122). -/
  | rxStart (p a t data now) (mem : Memory) :
      Effect s (.rxStart p a t data now)
        ((s.setRa (kidx (packId p a s.par.seqStart t)) { valid := true, ts := now, len := data.length }).setRab
          (kidx (packId p a s.par.seqStart t)) mem)
  /-- RA[k].ts is not refreshed (R128). -/
  | rxMiddle (p a t data now) (k : Key) (valid : Bool) (len : Nat) (mem : Memory) :
      Effect s (.rxMiddle p a t data now) ((s.setRa k { s.raAt k with valid := valid, len := len }).setRab k mem)
  | rxEnd (p a t data now) (k : Key) (mem : Memory) (tr fn n) :
      Effect s (.rxEnd p a t data now) (((s.dropEntry k).setRab k mem).withRecord tr fn n)
  | lookup (k : Key) (now) (tr fn n) : Effect s (.lookup k now) ((s.dropEntry k).withRecord tr fn n)

/-! ## Every operation has its effect -/

section
variable (s : State)

theorem Effect.unchanged (i : Instr) : Effect s i s := .quiet i s.trace s.fnOut s.freeCount

theorem Effect.setFnOut (i : Instr) (r : FnResult) : Effect s i (s.setFnOut r) := .quiet i s.trace (some r) s.freeCount

theorem Effect.emit (i : Instr) (e : Event) : Effect s i (s.emit e) := .quiet i (s.trace ++ [e]) s.fnOut s.freeCount

theorem Effect.dispatch (i : Instr) (t : TypeId) (bytes : List Byte) : Effect s i (dispatch s t bytes) := by
  rcases dispatch_cases s t bytes with ⟨-, e⟩ | ⟨-, e⟩ <;> rw [e]
  · exact .emit s i _
  · exact .unchanged s i

/-- What follows a checked message is events alone (R124). -/
theorem finishMessage_eq_withRecord (p : Prio) (a : Addr) (t : TypeId) (acc : List Byte) :
    ∃ tr, finishMessage s p a t acc = s.withRecord tr s.fnOut s.freeCount := by
  rw [finishMessage]
  split
  · next body _ =>
    rcases dispatch_cases s t body with ⟨-, e⟩ | ⟨-, e⟩ <;> rw [e] <;> exact ⟨_, rfl⟩
  · exact ⟨s.trace, rfl⟩

end

section
variable {s u : State}

theorem execRxAck_effect {p : Prio} {a : Addr} {sq : SeqTag} {data : List Byte} {now : Time}
    (h : execRxAck p a sq data now s = .next u) : Effect s (.rxAck p a sq data now) u := by
  cases h
  split
  · next hmatch => exact .rxAck _ _ _ _ _ hmatch
  · exact .unchanged s _

theorem execRxStart_effect {p : Prio} {a : Addr} {t : TypeId} {data : List Byte} {now : Time}
    (h : execRxStart p a t data now s = .next u) : Effect s (.rxStart p a t data now) u := by
  rw [execRxStart, outcome_eq_next, rabWrite_ok] at h
  obtain ⟨-, rfl⟩ := h
  exact .rxStart ..

theorem execRxMiddle_effect {p : Prio} {a : Addr} {t : TypeId} {data : List Byte} {now : Time}
    (h : execRxMiddle p a t data now s = .next u) : Effect s (.rxMiddle p a t data now) u := by
  have hdrop : ∀ k, Effect s (.rxMiddle p a t data now) (s.dropEntry k) := fun k =>
    (s.dropEntry k).setRab_rabAt k ▸ .rxMiddle _ _ _ _ _ k false (s.raAt k).len _
  rw [execRxMiddle] at h
  generalize kidx (packId p a s.par.seqMiddle t) = k at h
  rcases lookup_cases s k now with ⟨-, e⟩ | ⟨-, -, e⟩ | ⟨-, -, e⟩ <;> simp only [e] at h
  · cases h; exact .unchanged s _
  · cases h; exact hdrop k
  · split at h
    · cases h; exact hdrop k
    · rw [outcome_eq_next, rabWrite_ok] at h
      obtain ⟨-, rfl⟩ := h
      exact .rxMiddle ..

theorem execRxEnd_effect {p : Prio} {a : Addr} {t : TypeId} {data : List Byte} {now : Time}
    (h : execRxEnd p a t data now s = .next u) : Effect s (.rxEnd p a t data now) u := by
  have hdrop : ∀ k, Effect s (.rxEnd p a t data now) (s.dropEntry k) := fun k =>
    (s.dropEntry k).setRab_rabAt k ▸ .rxEnd _ _ _ _ _ k _ s.trace s.fnOut s.freeCount
  rw [execRxEnd] at h
  generalize kidx (packId p a s.par.seqEnd t) = k at h
  rcases lookup_cases s k now with ⟨-, e⟩ | ⟨-, -, e⟩ | ⟨-, -, e⟩ <;> simp only [e] at h
  · cases h; exact .unchanged s _
  · cases h; exact hdrop k
  split at h
  · cases h; exact hdrop k
  split at h
  · cases h
  next w hw =>
  obtain ⟨-, rfl⟩ := rabWrite_ok.1 hw
  split at h
  · cases h; exact .rxEnd _ _ _ _ _ k _ s.trace s.fnOut s.freeCount
  split at h
  · cases h
  next acc _ =>
  obtain ⟨tr, htr⟩ := finishMessage_eq_withRecord _ p a t acc
  rw [htr] at h
  cases h
  exact .rxEnd ..

theorem execCfgRetry_effect {limit : Retry} (h : execCfgRetry limit s = .next u) : Effect s (.cfgRetry limit) u := by
  rw [execCfgRetry] at h
  split at h <;> cases h
  · exact .unchanged s _
  · exact .cfgRetry limit

theorem execSend_effect {p : Prio} {a : Addr} {t : TypeId} {m : List Byte} (h : execSend p a t m s = .next u) :
    Effect s (.send p a t m) u := by
  rw [execSend] at h
  split at h
  · cases h; exact .unchanged s _
  split at h
  · cases h; exact .emit s _ (.done .rejected)
  rw [outcome_eq_next, txbWrite_ok, armSlot] at h
  obtain ⟨-, rfl⟩ := h
  split
  · next harm =>
    obtain ⟨hm, hr⟩ := Bool.and_eq_true_iff.1 harm
    exact .send _ _ _ _ _ _ (.inr ⟨hm, hr, rfl⟩)
  · exact .send _ _ _ _ s.ack _ (.inl rfl)

theorem execTxFrag_effect {now : Time} {txOk : Bool} (h : execTxFrag now txOk s = .next u) : Effect s (.txFrag now txOk) u := by
  rw [execTxFrag] at h
  split at h
  · split at h <;> cases h
    rw [afterFragment]
    split
    · exact .txFrag _ _ .idle s.tx.idx s.tx.waitStart ..
    split
    · exact .txFrag _ _ s.tx.state (s.tx.idx + 1) s.tx.waitStart ..
    split
    · exact .txFrag _ _ .idle s.tx.idx s.tx.waitStart ..
    · exact .txFrag _ _ .waitAck s.tx.idx now ..
  · cases h; exact .unchanged s _

theorem execTxWait_effect {now : Time} (h : execTxWait now s = .next u) : Effect s (.txWait now) u := by
  rw [execTxWait] at h
  split at h <;> cases h
  · rw [pollAck]
    split
    · exact .txWait _ .idle s.tx.idx s.tx.retries ..
    split
    · split
      · exact .txWait _ .sending 0 (s.tx.retries + 1) s.trace s.fnOut s.freeCount
      · exact .txWait _ .idle s.tx.idx s.tx.retries ..
    · exact .unchanged s _
  · exact .unchanged s _

theorem execLookup_effect {k : Key} {now : Time} (h : execLookup k now s = .next u) : Effect s (.lookup k now) u := by
  cases h
  rcases lookup_cases s k now with ⟨-, e⟩ | ⟨-, -, e⟩ | ⟨-, -, e⟩ <;> rw [e]
  · exact .setFnOut s _ _
  · exact .lookup k now s.trace (some (.lookup .expired)) s.freeCount
  · exact .setFnOut s _ _

theorem execCksumOk_effect {acc : List Byte} (h : execCksumOk acc s = .next u) : Effect s (.cksumOk acc) u := by
  rw [execCksumOk] at h
  split at h <;> cases h
  exact .setFnOut s _ _

theorem execExpired_effect {k : Key} {now : Time} (h : execExpired k now s = .next u) : Effect s (.expired k now) u := by
  rw [execExpired] at h
  split at h <;> cases h
  · exact .setFnOut s _ _
  · exact .quiet _ s.trace (some (.expiry (Config.unstatedExpired s.freeCount k now))) (s.freeCount + 1)

/-- Whatever operation completes, its effect is the one of its kind. -/
theorem exec_effect {i : Instr} (h : exec i s = .next u) : Effect s i u := by
  cases i with
  | rxAck p a sq data now => exact execRxAck_effect h
  | rxStart p a t data now => exact execRxStart_effect h
  | rxMiddle p a t data now => exact execRxMiddle_effect h
  | rxEnd p a t data now => exact execRxEnd_effect h
  | rxSingle p a t data now => cases h; exact .dispatch s _ t data
  | nop => cases h; exact .unchanged s _
  | cfgRetry limit => exact execCfgRetry_effect h
  | reg t size => cases h; exact .reg t size
  | send p a t m => exact execSend_effect h
  | reset => cases h; exact .reset
  | cmdReserved5 => cases h; exact .unchanged s _
  | cmdReserved6 => cases h; exact .unchanged s _
  | cmdReserved7 => cases h; exact .unchanged s _
  | txIdle => cases h; exact .unchanged s _
  | txFrag now txOk => exact execTxFrag_effect h
  | txWait now => exact execTxWait_effect h
  | txStateReserved3 => cases h
  | enc p a sq t => cases h; exact .setFnOut s _ _
  | dec id => cases h; exact .setFnOut s _ _
  | rkey id => cases h; exact .setFnOut s _ _
  | kidx id => cases h; exact .setFnOut s _ _
  | crc8Step c b => cases h; exact .setFnOut s _ _
  | crc8 bytes => cases h; exact .setFnOut s _ _
  | frag p a t m => cases h; exact .setFnOut s _ _
  | cksumOk acc => exact execCksumOk_effect h
  | expired k now => exact execExpired_effect h
  | lookup k now => exact execLookup_effect h
  | dispatch t bytes => cases h; exact .dispatch s _ t bytes
  | ackEmit p a t => cases h; exact .emit s _ _

end

/-! ## The writers of each element -/

@[simp] theorem resetState_par (s : State) : (resetState s).par = s.par := rfl
@[simp] theorem resetState_env (s : State) : (resetState s).env = s.env := rfl

/-- A component of RA[j] that the entry set shares with the one it replaces is unchanged. -/
theorem State.raAt_setRa_keeps {α : Type} (f : RaEntry → α) {s : State} {k : Key} {e : RaEntry} (h : f e = f (s.raAt k))
    (j : Key) : f ((s.setRa k e).raAt j) = f (s.raAt j) := by
  rw [State.raAt_setRa]
  split
  · next hk => rw [h, hk]
  · rfl

@[simp] theorem State.raAt_dropEntry_ts (s : State) (k j : Key) : ((s.dropEntry k).raAt j).ts = (s.raAt j).ts :=
  State.raAt_setRa_keeps RaEntry.ts (e := { s.raAt k with valid := false }) rfl j

@[simp] theorem State.raAt_dropEntry_len (s : State) (k j : Key) : ((s.dropEntry k).raAt j).len = (s.raAt j).len :=
  State.raAt_setRa_keeps RaEntry.len (e := { s.raAt k with valid := false }) rfl j

/-- Only the entry removed loses its valid bit. -/
theorem State.eq_of_raAt_dropEntry_valid_ne {s : State} {k j : Key} (h : ((s.dropEntry k).raAt j).valid ≠ (s.raAt j).valid) :
    k = j := by
  by_contra hne
  exact h (by rw [State.raAt_dropEntry, if_neg hne])

theorem State.eq_of_regAt_setReg_ne {s : State} {t j : TypeId} {e : RegEntry} (h : (s.setReg t e).regAt j ≠ s.regAt j) :
    t = j := by
  by_contra hne
  exact h (by rw [State.regAt_setReg, if_neg hne])

/-- A payload that matches the slot begins with ACK.expected (R160). -/
theorem eq_cons_of_ackMatches {s : State} {data : List Byte} (h : ackMatches s data = true) :
    ∃ b rest, data = b :: rest ∧ b.toNat = s.ack.expected.toNat := by
  cases data with
  | nil => cases h
  | cons b rest =>
    refine ⟨b, rest, rfl, ?_⟩
    rw [eq_of_beq h, BitVec.toNat_setWidth_of_le (by decide)]

/-- R25: ACK.satisfied is kept, cleared by RESET or a SEND that arms the slot, or set by a matching RX_ACK. -/
theorem Effect.satisfied_cases {s u : State} {i : Instr} (h : Effect s i u) :
    u.ack.satisfied = s.ack.satisfied ∨
    (u.ack.satisfied = false ∧
      (i = .reset ∨ ∃ p a t m, i = .send p a t m ∧ 8 < m.length ∧ 0 < s.cfg.retryLimit.toNat)) ∨
    (u.ack.satisfied = true ∧
      ∃ p a sq b rest now, i = .rxAck p a sq (b :: rest) now ∧ b.toNat = s.ack.expected.toNat) := by
  cases h with
  | reset => exact .inr (.inl ⟨rfl, .inl rfl⟩)
  | rxAck p a sq data now hmatch =>
    obtain ⟨b, rest, rfl, hb⟩ := eq_cons_of_ackMatches hmatch
    exact .inr (.inr ⟨rfl, p, a, sq, b, rest, now, rfl, hb⟩)
  | send p a t m ack txb hack =>
    rcases hack with rfl | ⟨hm, hr, rfl⟩
    · exact .inl rfl
    · exact .inr (.inl ⟨rfl, .inr ⟨p, a, t, m, rfl, (isMulti_iff m).1 hm, (retryMode_iff s).1 hr⟩⟩)
  | _ => exact .inl rfl

/-- Settles O49: by the effect of the operation, outside which every element is unchanged. -/
theorem onlyTheNamedWriters : Obligations.OnlyTheNamedWriters := by
  intro i s u h
  cases exec_effect h with
  | quiet => simp
  | reset => simp
  | cfgRetry limit => simp
  | reg t size => simpa using fun j hj => State.eq_of_regAt_setReg_ne hj
  | rxAck => simp
  | send => simp [startTx]
  | txFrag => simp
  | txWait => simp
  | rxStart => simp
  | rxMiddle p a t data now k valid len =>
    have hts := State.raAt_setRa_keeps RaEntry.ts (e := { s.raAt k with valid := valid, len := len }) rfl
    simp [hts]
  | rxEnd => simp
  | lookup k now => simpa using fun j hj => State.eq_of_raAt_dropEntry_valid_ne hj

/-- Settles O50: by the three things that can become of ACK.satisfied. -/
theorem satisfiedIsSticky : Obligations.SatisfiedIsSticky := by
  intro i s u h
  rcases (exec_effect h).satisfied_cases with hkept | ⟨hclear, hby⟩ | ⟨hset, hby⟩
  · rw [hkept]
    exact ⟨fun h1 h0 => absurd (h1.symm.trans h0) nofun, fun h0 h1 => absurd (h1.symm.trans h0) nofun⟩
  · exact ⟨fun _ _ => hby, fun _ hset => absurd (hclear.symm.trans hset) nofun⟩
  · exact ⟨fun _ hclear => absurd (hset.symm.trans hclear) nofun, fun _ _ => hby⟩

end Sys2Proof.Machine
end

section
/-! PROOFS. What each operation appends to the trace (spec/10_state.md R42, R76): one list of events for each way an operation
can emit, and the emitters of each kind of event. -/

namespace Sys2Proof.Machine

/-- The events that an operation can append to the trace when it completes, in their order (R76). -/
inductive Emits (s : State) : Instr → List Event → Prop where
  | silent (i : Instr) : Emits s i []
  | rxSingle (p a t data now) : Emits s (.rxSingle p a t data now) [.deliver t data]
  | dispatch (t bytes) : Emits s (.dispatch t bytes) [.deliver t bytes]
  /-- A good checksum: the body is delivered and then acknowledged (R124). -/
  | rxEndDelivered (p a t data now) (body : List Byte) :
      Emits s (.rxEnd p a t data now) [.deliver t body, .txf (ackFrame s.par (s.ackPrio p) a t)]
  /-- A good checksum, and no handler takes the body (R172): it is acknowledged all the same. -/
  | rxEndFiltered (p a t data now) :
      Emits s (.rxEnd p a t data now) [.txf (ackFrame s.par (s.ackPrio p) a t)]
  | ackEmit (p a t) : Emits s (.ackEmit p a t) [.txf (ackFrame s.par (s.ackPrio p) a t)]
  | sendRejected (p a t m) : Emits s (.send p a t m) [.done .rejected]
  /-- A fragment after which the send goes on (R148, R149). -/
  | txFrag (now txOk) (f : Frame) : Emits s (.txFrag now txOk) [.txf f]
  /-- A fragment that ends the send (R147, R149). -/
  | txFragEnds (now txOk) (f : Frame) (st : Status) : Emits s (.txFrag now txOk) [.txf f, .done st]
  /-- The wait ends with an acknowledgment (R151). -/
  | txWaitOk (now) (hwait : s.tx.state = .waitAck) : Emits s (.txWait now) [.done .ok]
  /-- The retries are exhausted (R154). -/
  | txWaitExhausted (now) (hwait : s.tx.state = .waitAck) :
      Emits s (.txWait now) [.err s.tx.typ s.tx.addr, .done .failNoack]

/-- The operation leaves the trace longer by events that it can emit. -/
def Appends (s : State) (i : Instr) (u : State) : Prop := ∃ es, u.trace = s.trace ++ es ∧ Emits s i es

/-! ## What the shared operations leave of the trace -/

@[simp] theorem lookup_trace (s : State) (k : Key) (now : Time) : (lookup s k now).2.trace = s.trace := by
  rcases lookup_cases s k now with ⟨-, e⟩ | ⟨-, -, e⟩ | ⟨-, -, e⟩ <;> rw [e]
  rfl

theorem rabWrite_trace {s u : State} {k : Key} {off : Nat} {bs : List Byte} (h : rabWrite s k off bs = .ok u) :
    u.trace = s.trace := by
  obtain ⟨-, rfl⟩ := rabWrite_ok.1 h
  rfl

theorem txbWrite_trace {s u : State} {bs : List Byte} (h : txbWrite s bs = .ok u) : u.trace = s.trace := by
  obtain ⟨-, rfl⟩ := txbWrite_ok.1 h
  rfl

@[simp] theorem armSlot_trace (s : State) (t : TypeId) (multi : Bool) : (armSlot s t multi).trace = s.trace := by
  rw [armSlot]
  split <;> rfl

/-- A checked message is delivered or dropped and then acknowledged, a corrupted one leaves no event (R124, R190). -/
theorem finishMessage_trace_cases (s : State) (p : Prio) (a : Addr) (t : TypeId) (acc : List Byte) :
    (∃ body, (finishMessage s p a t acc).trace =
      s.trace ++ [.deliver t body, .txf (ackFrame s.par (s.ackPrio p) a t)]) ∨
    (finishMessage s p a t acc).trace = s.trace ++ [.txf (ackFrame s.par (s.ackPrio p) a t)] ∨
    (finishMessage s p a t acc).trace = s.trace := by
  rw [finishMessage]
  split
  · next body _ =>
    rcases dispatch_cases s t body with ⟨-, e⟩ | ⟨-, e⟩ <;> rw [e]
    · exact .inl ⟨body, List.append_assoc ..⟩
    · exact .inr (.inl rfl)
  · exact .inr (.inr rfl)

/-! ## What each operation appends -/

section
variable {s u : State}

theorem Appends.of_trace_eq {i : Instr} (h : u.trace = s.trace) : Appends s i u :=
  ⟨[], by rw [h, List.append_nil], .silent i⟩

/-- What is dispatched is delivered or dropped; the operation has to be one that delivers it. -/
theorem Appends.dispatch {i : Instr} {t : TypeId} {bytes : List Byte} (hi : Emits s i [.deliver t bytes]) :
    Appends s i (dispatch s t bytes) := by
  rcases dispatch_cases s t bytes with ⟨-, e⟩ | ⟨-, e⟩ <;> rw [e]
  · exact ⟨_, rfl, hi⟩
  · exact .of_trace_eq rfl

theorem execRxAck_appends {p : Prio} {a : Addr} {sq : SeqTag} {data : List Byte} {now : Time}
    (h : execRxAck p a sq data now s = .next u) : Appends s (.rxAck p a sq data now) u := by
  cases h
  split <;> exact .of_trace_eq rfl

theorem execRxStart_appends {p : Prio} {a : Addr} {t : TypeId} {data : List Byte} {now : Time}
    (h : execRxStart p a t data now s = .next u) : Appends s (.rxStart p a t data now) u := by
  rw [execRxStart, outcome_eq_next] at h
  exact .of_trace_eq ((rabWrite_trace h).trans (State.setRa_trace ..))

theorem execRxMiddle_appends {p : Prio} {a : Addr} {t : TypeId} {data : List Byte} {now : Time}
    (h : execRxMiddle p a t data now s = .next u) : Appends s (.rxMiddle p a t data now) u := by
  rw [execRxMiddle] at h
  generalize kidx (packId p a s.par.seqMiddle t) = k at h
  rcases lookup_cases s k now with ⟨-, e⟩ | ⟨-, -, e⟩ | ⟨-, -, e⟩ <;> simp only [e] at h
  · cases h; exact .of_trace_eq rfl
  · cases h; exact .of_trace_eq rfl
  split at h
  · cases h; exact .of_trace_eq rfl
  · exact .of_trace_eq ((rabWrite_trace (outcome_eq_next.1 h)).trans (State.setRa_trace ..))

theorem execRxEnd_appends {p : Prio} {a : Addr} {t : TypeId} {data : List Byte} {now : Time}
    (h : execRxEnd p a t data now s = .next u) : Appends s (.rxEnd p a t data now) u := by
  rw [execRxEnd] at h
  generalize kidx (packId p a s.par.seqEnd t) = k at h
  rcases lookup_cases s k now with ⟨-, e⟩ | ⟨-, -, e⟩ | ⟨-, -, e⟩ <;> simp only [e] at h
  · cases h; exact .of_trace_eq rfl
  · cases h; exact .of_trace_eq rfl
  split at h
  · cases h; exact .of_trace_eq rfl
  split at h
  · cases h
  next w hw =>
  obtain ⟨-, rfl⟩ := rabWrite_ok.1 hw
  split at h
  · cases h; exact .of_trace_eq rfl
  split at h
  · cases h
  next acc _ =>
  cases h
  rcases finishMessage_trace_cases _ p a t acc with ⟨body, e⟩ | e | e
  · exact ⟨_, e, .rxEndDelivered p a t data now body⟩
  · exact ⟨_, e, .rxEndFiltered p a t data now⟩
  · exact .of_trace_eq e

theorem execCfgRetry_appends {limit : Retry} (h : execCfgRetry limit s = .next u) : Appends s (.cfgRetry limit) u := by
  rw [execCfgRetry] at h
  split at h <;> cases h <;> exact .of_trace_eq rfl

theorem execSend_appends {p : Prio} {a : Addr} {t : TypeId} {m : List Byte} (h : execSend p a t m s = .next u) :
    Appends s (.send p a t m) u := by
  rw [execSend] at h
  split at h
  · cases h; exact .of_trace_eq rfl
  split at h
  · cases h; exact ⟨_, rfl, .sendRejected p a t m⟩
  · exact .of_trace_eq ((txbWrite_trace (outcome_eq_next.1 h)).trans (armSlot_trace ..))

theorem execTxFrag_appends {now : Time} {txOk : Bool} (h : execTxFrag now txOk s = .next u) :
    Appends s (.txFrag now txOk) u := by
  rw [execTxFrag] at h
  split at h
  · split at h <;> cases h
    next f _ =>
    rw [afterFragment]
    split
    · exact ⟨_, List.append_assoc .., .txFragEnds now txOk f .failTransport⟩
    split
    · exact ⟨_, rfl, .txFrag now txOk f⟩
    split
    · exact ⟨_, List.append_assoc .., .txFragEnds now txOk f .ok⟩
    · exact ⟨_, rfl, .txFrag now txOk f⟩
  · cases h; exact .of_trace_eq rfl

theorem execTxWait_appends {now : Time} (h : execTxWait now s = .next u) : Appends s (.txWait now) u := by
  rw [execTxWait] at h
  split at h <;> cases h
  · next hwait =>
    rw [pollAck]
    split
    · exact ⟨_, rfl, .txWaitOk now hwait⟩
    split
    · split
      · exact .of_trace_eq rfl
      · exact ⟨_, List.append_assoc .., .txWaitExhausted now hwait⟩
    · exact .of_trace_eq rfl
  · exact .of_trace_eq rfl

theorem execCksumOk_appends {acc : List Byte} (h : execCksumOk acc s = .next u) : Appends s (.cksumOk acc) u := by
  rw [execCksumOk] at h
  split at h <;> cases h
  exact .of_trace_eq rfl

theorem execExpired_appends {k : Key} {now : Time} (h : execExpired k now s = .next u) : Appends s (.expired k now) u := by
  rw [execExpired] at h
  split at h <;> cases h <;> exact .of_trace_eq rfl

/-- R76: whatever operation completes, it appends events of its own to the trace and changes nothing before them. -/
theorem exec_appends {i : Instr} (h : exec i s = .next u) : Appends s i u := by
  cases i with
  | rxAck p a sq data now => exact execRxAck_appends h
  | rxStart p a t data now => exact execRxStart_appends h
  | rxMiddle p a t data now => exact execRxMiddle_appends h
  | rxEnd p a t data now => exact execRxEnd_appends h
  | rxSingle p a t data now => cases h; exact .dispatch (.rxSingle p a t data now)
  | cfgRetry limit => exact execCfgRetry_appends h
  | send p a t m => exact execSend_appends h
  | txFrag now txOk => exact execTxFrag_appends h
  | txWait now => exact execTxWait_appends h
  | txStateReserved3 => cases h
  | cksumOk acc => exact execCksumOk_appends h
  | expired k now => exact execExpired_appends h
  | lookup k now => cases h; exact .of_trace_eq (lookup_trace s k now)
  | dispatch t bytes => cases h; exact .dispatch (.dispatch t bytes)
  | ackEmit p a t => cases h; exact ⟨_, rfl, .ackEmit p a t⟩
  -- NOP, REG, RESET, the reserved codes, TX_IDLE and the remaining functions emit nothing.
  | _ => cases h; exact .of_trace_eq rfl

end

/-- Settles O53: by the lists of events that an operation can append. -/
theorem eventsHaveTheirEmitters : Obligations.EventsHaveTheirEmitters := by
  intro i s u h
  obtain ⟨es, htrace, hemits⟩ := exec_appends h
  refine ⟨es, htrace, ?_⟩
  cases hemits with
  | silent => exact List.forall_mem_nil _
  | rxSingle p a t data now => exact List.forall_mem_singleton.2 (.inl ⟨p, a, t, data, now, rfl⟩)
  | dispatch t bytes => exact List.forall_mem_singleton.2 (.inr (.inr ⟨t, bytes, rfl⟩))
  | rxEndDelivered p a t data now =>
    exact List.forall_mem_cons.2 ⟨.inr (.inl ⟨p, a, t, data, now, rfl⟩),
      List.forall_mem_singleton.2 (.inr (.inl ⟨p, a, t, data, now, rfl⟩))⟩
  | rxEndFiltered p a t data now => exact List.forall_mem_singleton.2 (.inr (.inl ⟨p, a, t, data, now, rfl⟩))
  | ackEmit p a t => exact List.forall_mem_singleton.2 (.inr (.inr ⟨p, a, t, rfl⟩))
  | sendRejected p a t m => exact List.forall_mem_singleton.2 (.inl ⟨p, a, t, m, rfl⟩)
  | txFrag now txOk => exact List.forall_mem_singleton.2 (.inl ⟨now, txOk, rfl⟩)
  | txFragEnds now txOk =>
    exact List.forall_mem_cons.2 ⟨.inl ⟨now, txOk, rfl⟩, List.forall_mem_singleton.2 (.inr (.inl ⟨now, txOk, rfl⟩))⟩
  | txWaitOk now => exact List.forall_mem_singleton.2 (.inr (.inr ⟨now, rfl⟩))
  | txWaitExhausted now =>
    exact List.forall_mem_cons.2 ⟨⟨⟨now, rfl⟩, rfl, rfl⟩, List.forall_mem_singleton.2 (.inr (.inr ⟨now, rfl⟩))⟩

end Sys2Proof.Machine
end

section
/-! PROOFS. Encoding (spec/30_encoding.md R81 to R90): for each decoder exactly the bytes it accepts and the operation they give,
so that decode and encode undo each other; which operation an inbound frame and TX.state select; the acknowledgment frame. -/

namespace Sys2Proof.Machine

/-! ## Fields of a packet -/

theorem byteField_of_lt {w : Nat} {b : Byte} (h : b.toNat < 2 ^ w) : byteField w b = .ok (b.setWidth w) := if_pos h

theorem pairField_of_lt {w : Nat} {lo hi : Byte} (h : (hi ++ lo).toNat < 2 ^ w) :
    pairField w lo hi = .ok ((hi ++ lo).setWidth w) := if_pos h

/-- Narrowing a value whose upper bits must be 0 accepts exactly the widened values. -/
theorem narrow_eq_ok_iff {n w : Nat} (hw : w ≤ n) {x : BitVec n} {v : BitVec w} {e : DecodeError} :
    (if x.toNat < 2 ^ w then Except.ok (x.setWidth w) else .error e) = .ok v ↔ x = v.setWidth n := by
  constructor
  · intro h
    split at h
    · next hx =>
      cases h
      apply BitVec.eq_of_toNat_eq
      rw [BitVec.toNat_setWidth_of_le hw, BitVec.toNat_setWidth, Nat.mod_eq_of_lt hx]
    · cases h
  · rintro rfl
    rw [BitVec.toNat_setWidth_of_le hw, if_pos v.isLt, BitVec.setWidth_setWidth_of_le v hw, BitVec.setWidth_eq]

/-- A byte field accepts exactly the bytes that hold a value of its width. -/
theorem byteField_eq_ok_iff {w : Nat} (hw : w ≤ 8) {b : Byte} {v : BitVec w} :
    byteField w b = .ok v ↔ b = v.setWidth 8 := narrow_eq_ok_iff hw

/-- Two bytes are those of a value exactly when the high one over the low one is the value. -/
theorem eq_pairBytes_iff {w : Nat} {lo hi : Byte} {v : BitVec w} : [lo, hi] = pairBytes v ↔ hi ++ lo = v.setWidth 16 := by
  have := lo.isLt
  have := hi.isLt
  simp only [pairBytes, List.cons.injEq, and_true, ← BitVec.toNat_inj, toNat_append, toNat_slice]
  omega

/-- A pair field accepts exactly the two bytes of a value of its width. -/
theorem pairField_eq_ok_iff {w : Nat} (hw : w ≤ 16) {lo hi : Byte} {v : BitVec w} :
    pairField w lo hi = .ok v ↔ [lo, hi] = pairBytes v := by
  rw [eq_pairBytes_iff]
  exact narrow_eq_ok_iff hw

theorem byteField_setWidth {w : Nat} (hw : w ≤ 8) (v : BitVec w) : byteField w (v.setWidth 8) = .ok v :=
  (byteField_eq_ok_iff hw).2 rfl

theorem pairField_pairBytes {w : Nat} (hw : w ≤ 16) (v : BitVec w) :
    pairField w ((v.setWidth 16).extractLsb' 0 8) ((v.setWidth 16).extractLsb' 8 8) = .ok v :=
  (pairField_eq_ok_iff hw).2 rfl

/-! ## The decoders of a command (R87) -/

theorem decodeBare_eq_ok_iff {i j : Instr} {operands : List Byte} : decodeBare j operands = .ok i ↔ operands = [] ∧ i = j := by
  cases operands with
  | nil => simp [decodeBare, eq_comm]
  | cons b bs => simp [decodeBare]

theorem decodeCfgRetry_eq_ok_iff {operands : List Byte} {i : Instr} :
    decodeCfgRetry operands = .ok i ↔ ∃ limit, operands = [limit] ∧ i = .cfgRetry limit := by
  constructor
  · intro h
    unfold decodeCfgRetry at h
    split at h <;> cases h
    exact ⟨_, rfl, rfl⟩
  · rintro ⟨limit, rfl, rfl⟩
    rfl

theorem decodeReg_eq_ok_iff {operands : List Byte} {i : Instr} :
    decodeReg operands = .ok i ↔ ∃ t size, operands = t.setWidth 8 :: pairBytes size ∧ i = .reg t size := by
  constructor
  · intro h
    unfold decodeReg at h
    split at h
    · split at h
      · next ht hsize =>
        cases h
        rw [(byteField_eq_ok_iff (by decide)).1 ht, (pairField_eq_ok_iff (by decide)).1 hsize]
        exact ⟨_, _, rfl, rfl⟩
      · cases h
    · cases h
  · rintro ⟨t, size, rfl, rfl⟩
    simp only [pairBytes, decodeReg, Nat.reduceLeDiff, byteField_setWidth, pairField_pairBytes]

theorem decodeSend_eq_ok_iff {operands : List Byte} {i : Instr} :
    decodeSend operands = .ok i ↔ ∃ p a t m, m.length < 2 ^ 16 ∧ i = .send p a t m ∧
      operands = p.setWidth 8 :: a.setWidth 8 :: t.setWidth 8 :: (pairBytes (BitVec.ofNat 16 m.length) ++ m) := by
  constructor
  · intro h
    unfold decodeSend at h
    split at h
    · split at h
      · next len hp ha ht hlen =>
        split at h
        · next hm =>
          cases h
          refine ⟨_, _, _, _, hm ▸ len.isLt, rfl, ?_⟩
          rw [(byteField_eq_ok_iff (by decide)).1 hp, (byteField_eq_ok_iff (by decide)).1 ha,
            (byteField_eq_ok_iff (by decide)).1 ht, hm, BitVec.ofNat_toNat, BitVec.setWidth_eq,
            ← (pairField_eq_ok_iff (by decide)).1 hlen]
          rfl
        · cases h
      · cases h
    · cases h
  · rintro ⟨p, a, t, m, hm, rfl, rfl⟩
    simp only [pairBytes, List.cons_append, List.nil_append, decodeSend, Nat.reduceLeDiff, byteField_setWidth,
      pairField_pairBytes, BitVec.toNat_ofNat, Nat.mod_eq_of_lt hm, if_true]

/-! ## The receive decoder (R86) -/

theorem decodeRx_eq_ok_iff {par : Params} {bytes : List Byte} {now : Time} {i : Instr} :
    decodeRx par bytes now = .ok i ↔ ∃ id data, data.length ≤ Config.maxDlc ∧
      bytes = encodeFrame { id := id, data := data } ∧ i = classify par id data now := by
  have hmax : Config.maxDlc = 8 := rfl
  constructor
  · intro h
    unfold decodeRx at h
    split at h
    · split at h
      · next id n hid hn =>
        split at h
        · cases h
        · next hle =>
          split at h
          · next hdata =>
            cases h
            refine ⟨_, _, hdata.trans_le (Nat.not_lt.1 hle), ?_, rfl⟩
            rw [encodeFrame, hdata, ← (pairField_eq_ok_iff (by decide)).1 hid, (byteField_eq_ok_iff (by decide)).1 hn,
              BitVec.ofNat_toNat]
            rfl
          · cases h
      · cases h
    · cases h
  · rintro ⟨id, data, hdata, rfl, rfl⟩
    have hlen : byteField 4 (BitVec.ofNat 8 data.length) = .ok (BitVec.ofNat 4 data.length) := by
      rw [byteField_eq_ok_iff (by decide)]
      apply BitVec.eq_of_toNat_eq
      simp only [BitVec.toNat_ofNat, BitVec.toNat_setWidth]
      omega
    have hn : (BitVec.ofNat 4 data.length).toNat = data.length := by
      rw [BitVec.toNat_ofNat]
      omega
    simp only [encodeFrame, pairBytes, List.cons_append, List.nil_append, decodeRx, Nat.reduceLeDiff,
      pairField_pairBytes, hlen, hn, Nat.not_lt.2 hdata, if_false, if_true]

/-- Four distinct codes of 2 bits leave no sequence tag without a meaning (R83). -/
theorem seqTag_cases {par : Params} (hpar : par.SeqDistinct) (sq : SeqTag) :
    sq = par.seqStart ∨ sq = par.seqMiddle ∨ sq = par.seqEnd ∨ sq = par.seqSingle := by
  simp only [Params.SeqDistinct, ne_eq, ← BitVec.toNat_inj] at hpar ⊢
  omega

section
variable {par : Params} (p : Prio) (a : Addr) (sq : SeqTag) {t : TypeId} (data : List Byte) (now : Time)

/-- Type 7 selects RX_ACK, whatever the sequence tag. -/
theorem classify_ack : classify par (packId p a sq Config.ackType) data now = .rxAck p a sq data now := by
  simp only [classify, dec_packId, if_true]

variable (ht : t ≠ Config.ackType)
include ht

theorem classify_start : classify par (packId p a par.seqStart t) data now = .rxStart p a t data now := by
  simp only [classify, dec_packId, if_neg ht, if_true]

variable (hpar : par.SeqDistinct)
include hpar

theorem classify_middle : classify par (packId p a par.seqMiddle t) data now = .rxMiddle p a t data now := by
  obtain ⟨hsm, -⟩ := hpar
  simp only [classify, dec_packId, if_neg ht, if_neg hsm.symm, if_true]

theorem classify_end : classify par (packId p a par.seqEnd t) data now = .rxEnd p a t data now := by
  obtain ⟨-, hse, -, hme, -⟩ := hpar
  simp only [classify, dec_packId, if_neg ht, if_neg hse.symm, if_neg hme.symm, if_true]

theorem classify_single : classify par (packId p a par.seqSingle t) data now = .rxSingle p a t data now := by
  obtain ⟨-, -, hss, -, hms, hes⟩ := hpar
  simp only [classify, dec_packId, if_neg ht, if_neg hss.symm, if_neg hms.symm, if_neg hes.symm]

/-- A data frame selects the operation that its sequence tag names. -/
theorem classify_data :
    (sq = par.seqStart → classify par (packId p a sq t) data now = .rxStart p a t data now) ∧
    (sq = par.seqMiddle → classify par (packId p a sq t) data now = .rxMiddle p a t data now) ∧
    (sq = par.seqEnd → classify par (packId p a sq t) data now = .rxEnd p a t data now) ∧
    (sq = par.seqSingle → classify par (packId p a sq t) data now = .rxSingle p a t data now) := by
  refine ⟨?_, ?_, ?_, ?_⟩
  · rintro rfl
    exact classify_start p a data now ht
  · rintro rfl
    exact classify_middle p a data now ht hpar
  · rintro rfl
    exact classify_end p a data now ht hpar
  · rintro rfl
    exact classify_single p a data now ht hpar

end

/-- Every identifier is one packed from its fields, so a fact about all packed identifiers is one about all of them. -/
theorem exists_packId (id : Ident) : ∃ p a sq t, id = packId p a sq t := ⟨_, _, _, _, (packId_dec id).symm⟩

/-- The operation that a frame selects is encoded as the packet of that frame. -/
theorem encode_classify {par : Params} (hpar : par.SeqDistinct) (id : Ident) (data : List Byte) (now : Time) :
    encode par (classify par id data now) = some { port := .rx, bytes := encodeFrame { id := id, data := data } } := by
  obtain ⟨p, a, sq, t, rfl⟩ := exists_packId id
  by_cases ht : t = Config.ackType
  · subst ht
    exact congrArg (encode par) (classify_ack p a sq data now)
  rcases seqTag_cases hpar sq with rfl | rfl | rfl | rfl
  · exact congrArg (encode par) (classify_start p a data now ht)
  · exact congrArg (encode par) (classify_middle p a data now ht hpar)
  · exact congrArg (encode par) (classify_end p a data now ht hpar)
  · exact congrArg (encode par) (classify_single p a data now ht hpar)

/-- A frame of at most 8 bytes decodes to the operation its identifier selects. -/
theorem decode_encodeFrame (par : Params) (id : Ident) {data : List Byte} (hdata : data.length ≤ Config.maxDlc) (now : Time)
    (txOk : Bool) :
    decode par { port := .rx, bytes := encodeFrame { id := id, data := data } } now txOk = .ok (classify par id data now) :=
  decodeRx_eq_ok_iff.2 ⟨id, data, hdata, rfl, rfl⟩

/-! ## The transmit engine and the function ports (R45, R88) -/

theorem code_ofCode (c : BitVec 2) : (TxState.ofCode c).code = c := by
  revert c
  decide

theorem txStep_wellFormed (st : TxState) (now : Time) (txOk : Bool) : (txStep st now txOk).WellFormed := by
  cases st <;> rfl

theorem encode_txStep (par : Params) (st : TxState) (now : Time) (txOk : Bool) :
    encode par (txStep st now txOk) = some { port := .txe, bytes := [st.code.setWidth 8] } := by
  cases st <;> rfl

theorem decodeTxe_eq_ok_iff {bytes : List Byte} {now : Time} {txOk : Bool} {i : Instr} :
    decodeTxe bytes now txOk = .ok i ↔ ∃ st : TxState, bytes = [st.code.setWidth 8] ∧ i = txStep st now txOk := by
  constructor
  · intro h
    unfold decodeTxe at h
    split at h
    · split at h
      · next c hc =>
        cases h
        refine ⟨_, ?_, rfl⟩
        rw [code_ofCode, ← (byteField_eq_ok_iff (by decide)).1 hc]
      · cases h
    · cases h
  · rintro ⟨st, rfl, rfl⟩
    exact decode_stateCode Params.default st now txOk

theorem decodeIdCall_eq_ok_iff {f : Ident → Instr} {bytes : List Byte} {i : Instr} :
    decodeIdCall f bytes = .ok i ↔ ∃ id, bytes = pairBytes id ∧ i = f id := by
  constructor
  · intro h
    unfold decodeIdCall at h
    split at h
    · split at h
      · next hid =>
        cases h
        exact ⟨_, (pairField_eq_ok_iff (by decide)).1 hid, rfl⟩
      · cases h
    · cases h
  · rintro ⟨id, rfl, rfl⟩
    simp only [pairBytes, decodeIdCall, Nat.reduceLeDiff, pairField_pairBytes]

/-! ## The round trips -/

/-- Settles O10: for each operation that a port presents, its decoder accepts the bytes of its packet. -/
theorem decodeEncodeRoundTrip : Obligations.DecodeEncodeRoundTrip := by
  intro par i pkt hpar hwf henc
  cases i with
  | rxAck p a sq data now =>
    cases henc
    exact decodeRx_eq_ok_iff.2 ⟨_, data, of_decide_eq_true hwf, rfl, (classify_ack p a sq data now).symm⟩
  | rxStart p a t data now =>
    cases henc
    obtain ⟨ht, hdata⟩ := dataFrame_wellFormed hwf
    exact decodeRx_eq_ok_iff.2 ⟨_, data, hdata, rfl, (classify_start p a data now ht).symm⟩
  | rxMiddle p a t data now =>
    cases henc
    obtain ⟨ht, hdata⟩ := dataFrame_wellFormed hwf
    exact decodeRx_eq_ok_iff.2 ⟨_, data, hdata, rfl, (classify_middle p a data now ht hpar).symm⟩
  | rxEnd p a t data now =>
    cases henc
    obtain ⟨ht, hdata⟩ := dataFrame_wellFormed hwf
    exact decodeRx_eq_ok_iff.2 ⟨_, data, hdata, rfl, (classify_end p a data now ht hpar).symm⟩
  | rxSingle p a t data now =>
    cases henc
    obtain ⟨ht, hdata⟩ := dataFrame_wellFormed hwf
    exact decodeRx_eq_ok_iff.2 ⟨_, data, hdata, rfl, (classify_single p a data now ht hpar).symm⟩
  | reg t size => cases henc; exact decodeReg_eq_ok_iff.2 ⟨t, size, rfl, rfl⟩
  | send p a t m => cases henc; exact decodeSend_eq_ok_iff.2 ⟨p, a, t, m, of_decide_eq_true hwf, rfl, rfl⟩
  | dec id | rkey id | kidx id => cases henc; exact decodeIdCall_eq_ok_iff.2 ⟨id, rfl, rfl⟩
  | nop | cfgRetry | reset | cmdReserved5 | cmdReserved6 | cmdReserved7 => cases henc; rfl
  | txIdle | txFrag | txWait | txStateReserved3 => cases henc; rfl
  | enc | crc8Step | crc8 => cases henc; rfl
  | frag | cksumOk | expired | lookup | dispatch | ackEmit => cases henc

theorem encode_of_decodeCmd {par : Params} {bytes : List Byte} {i : Instr} (h : decodeCmd bytes = .ok i) :
    encode par i = some { port := .cmd, bytes := bytes } := by
  have hbare : ∀ {j : Instr} {b : Byte} {operands : List Byte}, decodeBare j operands = .ok i →
      encode par j = some { port := .cmd, bytes := [b] } → encode par i = some { port := .cmd, bytes := b :: operands } := by
    intro j b operands hd hj
    obtain ⟨rfl, rfl⟩ := decodeBare_eq_ok_iff.1 hd
    exact hj
  unfold decodeCmd at h
  split at h
  · cases h
  split at h
  · next hb => subst hb; exact hbare h rfl
  split at h
  · next hb =>
    obtain ⟨limit, rfl, rfl⟩ := decodeCfgRetry_eq_ok_iff.1 h
    rw [hb]; rfl
  split at h
  · next hb =>
    obtain ⟨t, size, rfl, rfl⟩ := decodeReg_eq_ok_iff.1 h
    rw [hb]; rfl
  split at h
  · next hb =>
    obtain ⟨p, a, t, m, -, rfl, rfl⟩ := decodeSend_eq_ok_iff.1 h
    rw [hb]; rfl
  split at h
  · next hb => subst hb; exact hbare h rfl
  split at h
  · next hb => subst hb; exact hbare h rfl
  split at h
  · next hb => subst hb; exact hbare h rfl
  split at h
  · next hb => subst hb; exact hbare h rfl
  · cases h

theorem encode_of_decodeFn {par : Params} {f : FnPort} {bytes : List Byte} {i : Instr} (h : decodeFn f bytes = .ok i) :
    encode par i = some { port := .fn f, bytes := bytes } := by
  cases f with
  | enc =>
    simp only [decodeFn] at h
    split at h <;> cases h
    rfl
  | dec => obtain ⟨id, rfl, rfl⟩ := decodeIdCall_eq_ok_iff.1 h; rfl
  | rkey => obtain ⟨id, rfl, rfl⟩ := decodeIdCall_eq_ok_iff.1 h; rfl
  | kidx => obtain ⟨id, rfl, rfl⟩ := decodeIdCall_eq_ok_iff.1 h; rfl
  | crc8Step =>
    simp only [decodeFn] at h
    split at h <;> cases h
    rfl
  | crc8 => cases h; rfl

/-- Settles O11: for each port, the bytes that its decoder accepts are those of the operation's packet. -/
theorem encodeDecodeRoundTrip : Obligations.EncodeDecodeRoundTrip := by
  rintro par ⟨port, bytes⟩ now txOk i hpar h
  cases port with
  | cmd => exact ⟨(decodeCmd_admitted h).1, encode_of_decodeCmd h⟩
  | rx =>
    obtain ⟨id, data, hdata, rfl, rfl⟩ := decodeRx_eq_ok_iff.1 h
    exact ⟨(classify_admitted par id hdata now).1, encode_classify hpar id data now⟩
  | txe =>
    obtain ⟨st, rfl, rfl⟩ := decodeTxe_eq_ok_iff.1 h
    exact ⟨txStep_wellFormed st now txOk, encode_txStep par st now txOk⟩
  | fn f => exact ⟨(decodeFn_admitted h).1, encode_of_decodeFn h⟩

/-! ## Selection -/

/-- An AND of packed identifiers is the AND of each field, so a mask of R86 is a packed identifier too. -/
theorem packId_and_packId (p q : Prio) (a b : Addr) (sq sr : SeqTag) (t u : TypeId) :
    packId p a sq t &&& packId q b sr u = packId (p &&& q) (a &&& b) (sq &&& sr) (t &&& u) := by
  change (p ++ a ++ sq ++ t) &&& (q ++ b ++ sr ++ u) = _
  rw [BitVec.and_append, BitVec.and_append, BitVec.and_append]
  rfl

theorem packId_inj {p q : Prio} {a b : Addr} {sq sr : SeqTag} {t u : TypeId} :
    packId p a sq t = packId q b sr u ↔ p = q ∧ a = b ∧ sq = sr ∧ t = u :=
  ⟨fun h => by simpa only [dec_packId, Fields.mk.injEq] using congrArg dec h, by rintro ⟨rfl, rfl, rfl, rfl⟩; rfl⟩

/-- The mask 0x007 compares the type (R86). -/
theorem packId_and_typeMask (p : Prio) (a : Addr) (sq : SeqTag) (t : TypeId) :
    packId p a sq t &&& 0x007#11 = 0x007#11 ↔ t = Config.ackType := by
  have hmask : 0x007#11 = packId 0 0 0 Config.ackType := rfl
  have hall : Config.ackType = BitVec.allOnes 3 := rfl
  rw [hmask, packId_and_packId, packId_inj, hall, BitVec.and_allOnes]
  simp

/-- The mask 0x018 compares the sequence tag (R86). -/
theorem packId_and_seqMask (p : Prio) (a : Addr) (sq : SeqTag) (t : TypeId) (c : SeqTag) :
    packId p a sq t &&& 0x018#11 = packId 0 0 c 0 ↔ sq = c := by
  have hmask : 0x018#11 = packId 0 0 (BitVec.allOnes 2) 0 := rfl
  rw [hmask, packId_and_packId, packId_inj, BitVec.and_allOnes]
  simp

/-- Settles O12: the frame's packet decodes to what its identifier selects. -/
theorem receiveSelection : Obligations.ReceiveSelection := by
  intro par id data now txOk hdata
  obtain ⟨p, a, sq, t, rfl⟩ := exists_packId id
  simp only [decode_encodeFrame _ _ hdata, dec_packId, Except.ok.injEq, packId_and_typeMask, ne_eq]
  have hack : ∀ q : Params, t = Config.ackType → classify q (packId p a sq t) data now = .rxAck p a sq data now := by
    rintro q rfl
    exact classify_ack p a sq data now
  refine ⟨hack par, fun ht hpar => classify_data p a sq data now ht hpar, hack Params.default, fun ht => ?_⟩
  obtain ⟨hstart, hmiddle, hend, hsingle⟩ :=
    classify_data (par := Params.default) p a sq data now ht (by decide)
  have hmask := fun c => (packId_and_seqMask p a sq t c).1
  exact ⟨fun h => hstart (hmask 0 h), fun h => hmiddle (hmask 1 h), fun h => hend (hmask 2 h), fun h => hsingle (hmask 3 h)⟩

/-- Settles O13: TX.state selects the step, and its code as a packet decodes to that step. -/
theorem transmitSelection : Obligations.TransmitSelection := by
  refine ⟨fun s t turns ht ha => ?_, fun par now txOk =>
    ⟨decode_stateCode par .idle now txOk, decode_stateCode par .sending now txOk, decode_stateCode par .waitAck now txOk⟩⟩
  have hstep : ∀ st, s.tx.state = st → step s = exec (txStep st t.now t.txOk) (s.setEnv { s.env with turns := turns }) := by
    rintro _ rfl
    exact step_of_op (fetch_txe ht ha)
  exact ⟨hstep .idle, hstep .sending, hstep .waitAck⟩

/-- Settles O40: a step that TX.state does not select is held, and code 3 decodes to the step that is refused. -/
theorem unselectedTransmitSteps : Obligations.UnselectedTransmitSteps :=
  fun now txOk s => ⟨fun _ => rfl, fun hst => if_neg hst, fun hst => if_neg hst,
    decode_stateCode s.par .reserved3 now txOk, rfl⟩

/-- A len of 9..15 fits its field and is more than a frame holds (R90). -/
theorem decodeRx_illegalLength (par : Params) (lo : Byte) {hi len : Byte} (data : List Byte) (now : Time)
    (hhi : hi.toNat < 8) (hmin : 9 ≤ len.toNat) (hmax : len.toNat ≤ 15) :
    decodeRx par (lo :: hi :: len :: data) now = .error .illegalFrameLength := by
  have hid : (hi ++ lo).toNat < 2 ^ 11 := by
    rw [toNat_append]
    omega
  have hlen : Config.maxDlc < (len.setWidth 4).toNat := by
    rw [BitVec.toNat_setWidth, Nat.mod_eq_of_lt (Nat.lt_succ_of_le hmax)]
    exact hmin
  simp only [decodeRx, pairField_of_lt hid, byteField_of_lt (w := 4) (Nat.lt_succ_of_le hmax), if_pos hlen]

theorem step_of_undecodable {s u : State} {pkt : Packet} {t : Turn} {e : DecodeError} (hf : fetch s = fetched pkt t u)
    (hd : decode u.par pkt t.now t.txOk = .error e) : step s = .refused (.undecodable e) := by
  rw [step, hf, fetched, hd]

/-- Settles O14: the frame presented is fetched, and its len is no operand. -/
theorem illegalFrameLengthRefused : Obligations.IllegalFrameLengthRefused := by
  intro s t turns lo hi len data rest ht ha hf hhi hmin hmax
  exact step_of_undecodable (fetch_rxp ht ha hf) (decodeRx_illegalLength _ lo data t.now hhi hmin hmax)

/-- Settles O15: the decoder evaluated on each packet. -/
theorem decodedWords : Obligations.DecodedWords := ⟨rfl, rfl, rfl, rfl, rfl⟩

/-- Settles O31: the reserved op codes run NOP. -/
theorem reservedCommandsActAsNop : Obligations.ReservedCommandsActAsNop :=
  fun _ => ⟨rfl, rfl, rfl⟩

/-- Settles O28: the frame is the model's acknowledgment frame, its identifier read as a number. -/
theorem ackFrameFormat : Obligations.AckFrameFormat := by
  intro p a t s ht
  have hlt := t.isLt
  have hne : t.toNat ≠ 7 := fun h => ht (BitVec.eq_of_toNat_eq h)
  refine ⟨ackFrame s.par (s.ackPrio p) a t, rfl, packId_toNat .., fun h3 => ?_, ?_, by omega⟩
  · have hmask : 0x01F#11 = packId 0 0 3 Config.ackType := rfl
    rw [ackFrame, h3, hmask, packId_and_packId, packId_inj]
    simp
  · rw [ackFrame, List.map_singleton, BitVec.toNat_setWidth_of_le (by decide)]

end Sys2Proof.Machine
end

section
/-! PROOFS. Identifier codec (spec/40_codec.md R100 to R104): each function port in terms of `packId`, so that a fact about the
fields of an identifier is one about `packId`'s arguments. -/

namespace Sys2Proof.Machine

/-! ## ENC and DEC -/

theorem enc_toNat {w : Nat} (p a sq t : BitVec w) :
    (enc p a sq t).toNat = p.toNat % 4 * 512 + a.toNat % 16 * 32 + sq.toNat % 4 * 8 + t.toNat % 8 := by
  simp only [enc, packId_toNat, BitVec.toNat_setWidth, Nat.reducePow]

/-- ENC on fields widened to any operand width that holds them loses nothing. -/
theorem enc_setWidth {w : Nat} (hw : 4 ≤ w) (p : Prio) (a : Addr) (sq : SeqTag) (t : TypeId) :
    enc (p.setWidth w) (a.setWidth w) (sq.setWidth w) (t.setWidth w) = packId p a sq t := by
  have h2 : 2 ≤ w := by omega
  have h3 : 3 ≤ w := by omega
  rw [enc, BitVec.setWidth_setWidth_of_le _ h2, BitVec.setWidth_setWidth_of_le _ hw, BitVec.setWidth_setWidth_of_le _ h2,
    BitVec.setWidth_setWidth_of_le _ h3]
  simp only [BitVec.setWidth_eq]

/-- Settles O1: the port shows the function's value, and that value is the packed identifier as a number. -/
theorem encPacksTruncatedFields : Obligations.EncPacksTruncatedFields :=
  ⟨fun _ _ _ _ _ => rfl, fun _ => enc_toNat⟩

/-- Settles O2: the port shows the four slices, each read as a number; the top one needs no truncation and the bottom one no
shift. -/
theorem decSplitsIdentifier : Obligations.DecSplitsIdentifier := by
  intro id s
  have hprio : id.toNat / 2 ^ 9 % 2 ^ 2 = id.toNat / 512 := by
    have := id.isLt
    omega
  have htyp : id.toNat / 2 ^ 0 % 2 ^ 3 = id.toNat % 8 := by omega
  exact ⟨dec id, rfl, (toNat_slice ..).trans hprio, toNat_slice .., toNat_slice ..,
    (toNat_slice ..).trans htyp⟩

/-- Settles O3: ENC packs truncated fields, which DEC gives back; DEC's fields fit a byte, so ENC packs them whole. -/
theorem codecRoundTrip : Obligations.CodecRoundTrip :=
  ⟨fun _ _ _ _ _ => dec_packId .., fun id => (enc_setWidth (by decide) ..).trans (packId_dec id)⟩

/-! ## RKEY -/

/-- The mask 0x7E7 is the packed identifier of full fields with sequence 0, so RKEY clears the sequence tag alone (R102). -/
theorem rkey_packId (p : Prio) (a : Addr) (sq : SeqTag) (t : TypeId) : rkey (packId p a sq t) = packId p a 0 t := by
  have hmask : 0x7E7#11 = packId (BitVec.allOnes 2) (BitVec.allOnes 4) 0 (BitVec.allOnes 3) := rfl
  rw [rkey, hmask, packId_and_packId, BitVec.and_allOnes, BitVec.and_allOnes, BitVec.and_allOnes]
  exact congrArg (packId p a · t) BitVec.and_zero

/-- Settles O4: on packed identifiers RKEY puts 0 for the sequence tag, and packing is injective. -/
theorem routingKeyMasksSequence : Obligations.RoutingKeyMasksSequence := by
  refine ⟨fun _ _ => rfl, fun id => ?_, fun id jd => ?_⟩
  · obtain ⟨p, a, sq, t, rfl⟩ := exists_packId id
    simp only [rkey_packId, dec_packId, true_and]
    rintro rfl
    rfl
  · obtain ⟨p, a, sq, t, rfl⟩ := exists_packId id
    obtain ⟨q, b, sr, u, rfl⟩ := exists_packId jd
    simp only [rkey_packId, dec_packId, packId_inj, true_and]

/-! ## KIDX -/

/-- The routing key with a given key index: KIDX undone (R103). -/
def keyOfIndex (k : Key) : Ident := packId (k.extractLsb' 7 2) (k.extractLsb' 3 4) 0 (k.extractLsb' 0 3)

theorem kidx_keyOfIndex (k : Key) : kidx (keyOfIndex k) = k := by
  apply BitVec.eq_of_toNat_eq
  have := k.isLt
  simp only [keyOfIndex, kidx_toNat, packId_toNat, toNat_slice]
  omega

theorem kidx_rkey (id : Ident) : kidx (rkey id) = kidx id := by
  obtain ⟨p, a, sq, t, rfl⟩ := exists_packId id
  rw [rkey_packId, kidx_packId]

theorem keyOfIndex_kidx (id : Ident) : keyOfIndex (kidx id) = rkey id := by
  obtain ⟨p, a, sq, t, rfl⟩ := exists_packId id
  have := p.isLt; have := a.isLt; have := sq.isLt; have := t.isLt
  rw [rkey_packId, keyOfIndex, packId_inj]
  refine ⟨?_, ?_, rfl, ?_⟩ <;> apply BitVec.eq_of_toNat_eq <;> rw [toNat_slice, kidx_toNat, packId_toNat] <;> omega

/-- Settles O5: KIDX and `keyOfIndex` undo each other between routing keys and key indices. -/
theorem keyIndexCompactsRoutingKey : Obligations.KeyIndexCompactsRoutingKey := by
  refine ⟨fun id _ => ⟨kidx id, rfl, kidx_toNat id⟩, fun id => (kidx_rkey id).symm,
    fun id jd => ⟨fun h => ?_, fun h => ?_⟩, fun k => ⟨keyOfIndex k, kidx_keyOfIndex k⟩⟩
  · rw [← keyOfIndex_kidx, h, keyOfIndex_kidx]
  · rw [← kidx_rkey, h, kidx_rkey]

end Sys2Proof.Machine
end

section
/-! PROOFS. Checksum unit (spec/41_checksum.md R110 to R113): one iteration of CRC8_STEP is linear over XOR and sends only
0 to 0, so it is one-to-one, and what the rules say of CRC8_STEP and CRC8 follows. -/

namespace Sys2Proof.Machine

/-! ## One iteration of the loop -/

/-- The left shift drops the top bit alone. -/
theorem eq_zero_of_shiftLeft_one {v : Byte} (hv : v.msb = false) (h : v <<< 1 = 0) : v = 0 := by
  rw [BitVec.msb_eq_false_iff_two_mul_lt] at hv
  bv_omega

/-- Linear over XOR: two top bits that are set cancel, and so do the two polynomials they add. -/
theorem crcShift_xor (v w : Byte) : crcShift (v ^^^ w) = crcShift v ^^^ crcShift w := by
  simp only [crcShift, BitVec.msb_xor, BitVec.shiftLeft_xor_distrib]
  cases v.msb <;> cases w.msb
  case false.false => rfl
  case false.true => exact BitVec.xor_assoc ..
  case true.false =>
    change v <<< 1 ^^^ w <<< 1 ^^^ Config.crcPoly = v <<< 1 ^^^ Config.crcPoly ^^^ w <<< 1
    ac_rfl
  case true.true =>
    change v <<< 1 ^^^ w <<< 1 = v <<< 1 ^^^ Config.crcPoly ^^^ (w <<< 1 ^^^ Config.crcPoly)
    rw [BitVec.xor_comm (w <<< 1) Config.crcPoly, ← BitVec.xor_assoc, xor_cancel_right]

/-- The polynomial is odd and a shifted byte is even, so the iteration cannot cancel a byte whose top bit is set. -/
theorem eq_zero_of_crcShift {v : Byte} (h : crcShift v = 0) : v = 0 := by
  rw [crcShift] at h
  split at h
  · have hbit := congrArg (BitVec.getLsbD · 0) h
    simp [Config.crcPoly] at hbit
  next hv => exact eq_zero_of_shiftLeft_one (by simpa using hv) h

theorem crcShift_injective : Function.Injective crcShift := by
  intro v w h
  have hxor : crcShift (v ^^^ w) = 0 := by
    rw [crcShift_xor, h]
    exact BitVec.xor_self
  exact BitVec.xor_eq_zero_iff.mp (eq_zero_of_crcShift hxor)

/-- The iteration tests the top bit and adds the polynomial as R110 writes them. -/
theorem crcShift_eq_ite_getLsbD (v : Byte) : crcShift v = if v.getLsbD 7 then (v <<< 1) ^^^ 0x31#8 else v <<< 1 := by
  rw [crcShift, BitVec.msb_eq_getLsbD_last]
  rfl

/-! ## The loop -/

theorem crcShifts_eq_iterate (n : Nat) : crcShifts n = crcShift^[n] := by
  induction n with
  | zero => rfl
  | succ n ih => funext v; rw [crcShifts, ih, Function.iterate_succ_apply]

theorem crcShifts_xor (n : Nat) (v w : Byte) : crcShifts n (v ^^^ w) = crcShifts n v ^^^ crcShifts n w := by
  induction n generalizing v w with
  | zero => rfl
  | succ n ih => rw [crcShifts, crcShift_xor, ih, crcShifts, crcShifts]

theorem crcShifts_injective (n : Nat) : Function.Injective (crcShifts n) :=
  crcShifts_eq_iterate n ▸ crcShift_injective.iterate n

/-! ## CRC8_STEP -/

theorem crc8Step_xor (c d b e : Byte) : crc8Step (c ^^^ d) (b ^^^ e) = crc8Step c b ^^^ crc8Step d e := by
  rw [crc8Step, crc8Step, crc8Step, ← crcShifts_xor]
  ac_rfl

/-- A byte equal to the running checksum cancels it. -/
theorem crc8Step_self (c : Byte) : crc8Step c c = 0 := by
  rw [crc8Step, BitVec.xor_self]
  rfl

theorem crc8Step_injective_right (c : Byte) : Function.Injective (crc8Step c) :=
  fun _ _ h => (BitVec.xor_right_inj _).mp (crcShifts_injective 8 h)

theorem crc8Step_injective_left (b : Byte) : Function.Injective (crc8Step · b) :=
  fun _ _ h => (BitVec.xor_left_inj _).mp (crcShifts_injective 8 h)

/-- Settles O6: the model's recursion is the iterate of its one iteration, which is the rule's. -/
theorem crcStepIsTheShiftLoop : Obligations.CrcStepIsTheShiftLoop := by
  intro c b s
  have hstep : crc8Step c b =
      (fun v : Byte => if v.getLsbD 7 then (v <<< 1) ^^^ 0x31#8 else v <<< 1)^[8] (c ^^^ b) := by
    rw [crc8Step, crcShifts_eq_iterate, funext crcShift_eq_ite_getLsbD]
  rw [← hstep]
  rfl

/-! ## CRC8 -/

/-- The checksum of the first part is the running checksum of the second (R111, R114). -/
theorem crc8_append_list (as bs : List Byte) : crc8 (as ++ bs) = bs.foldl crc8Step (crc8 as) := List.foldl_append

/-- A zero byte leaves the initial value as it is (R111). -/
theorem crc8_zero_cons (bs : List Byte) : crc8 (0 :: bs) = crc8 bs :=
  congrArg (bs.foldl crc8Step) (crc8Step_self Config.crcInit)

theorem crc8_replicate_zero_append (n : Nat) (bs : List Byte) : crc8 (List.replicate n 0 ++ bs) = crc8 bs := by
  induction n with
  | zero => rfl
  | succ n ih => exact (crc8_zero_cons _).trans ih

/-- The residue: a sequence followed by its own checksum has checksum 0, and no other last byte gives 0 (R111, R112). -/
theorem crc8_append_eq_zero_iff (bs : List Byte) (c : Byte) : crc8 (bs ++ [c]) = 0 ↔ crc8 bs = c := by
  rw [crc8_append, ← crc8Step_self (crc8 bs), (crc8Step_injective_right _).eq_iff, eq_comm]

/-- The checksum of what follows tells running checksums apart. -/
theorem foldl_crc8Step_injective (bs : List Byte) : Function.Injective (bs.foldl crc8Step) := by
  induction bs with
  | nil => exact Function.injective_id
  | cons b bs ih => exact ih.comp (crc8Step_injective_left b)

theorem eq_of_crc8_eq {pre post : List Byte} {b c : Byte} (h : crc8 (pre ++ [b] ++ post) = crc8 (pre ++ [c] ++ post)) :
    b = c := by
  rw [crc8_append_list _ post, crc8_append_list _ post] at h
  have hpre : crc8 (pre ++ [b]) = crc8 (pre ++ [c]) := foldl_crc8Step_injective post h
  rw [crc8_append, crc8_append] at hpre
  exact crc8Step_injective_right _ hpre

/-- Settles O7: leading zeros leave the running checksum 0, and a byte equal to it cancels it. -/
theorem crcOfSequence : Obligations.CrcOfSequence :=
  ⟨fun _ _ => rfl, rfl, crc8_append, crc8_replicate_zero_append, fun bs => (crc8_append_eq_zero_iff bs _).mpr rfl,
    by decide +kernel, by decide +kernel⟩

/-- Settles O8: linear because each iteration is; one-to-one because each iteration is, which the bytes after the changed
one keep. -/
theorem crcDetectsOneChangedByte : Obligations.CrcDetectsOneChangedByte :=
  ⟨crc8Step_xor, fun c _ _ h => crc8Step_injective_right c h, fun _ _ b h => crc8Step_injective_left b h,
    fun _ _ _ _ hbc h => hbc (eq_of_crc8_eq h)⟩

/-! ## CKSUM_OK -/

/-- Settles O9: the port shows the validator's answer, and the residue test is the same comparison. -/
theorem checksumValidator : Obligations.ChecksumValidator := by
  intro body c s
  have hexec : exec (.cksumOk (body ++ [c])) s = .next { s with fnOut := some (.validated (crc8 body == c) body) } := by
    rw [exec, execCksumOk, cksumOk_append]
    rfl
  exact ⟨crc8 body == c, hexec, beq_iff_eq, beq_iff_eq.trans (crc8_append_eq_zero_iff body c).symm⟩

end Sys2Proof.Machine
end

section
/-! PROOFS. Reassembly (spec/42_reassembly.md R120 to R134): each receive operation as one write to the entry, the buffer and the
events of its own key, and what that leaves unchanged. -/

namespace Sys2Proof.Machine

/-! ## The one change a data frame can make -/

/-- Events appended to the output (R76). -/
def State.emitAll (s : State) (es : List Event) : State := { s with trace := s.trace ++ es }

theorem State.emitAll_nil (s : State) : s.emitAll [] = s := by
  rw [State.emitAll, List.append_nil]

/-- RA[k] and RAB[k] are written, and events are emitted. -/
def State.writeKey (s : State) (k : Key) (e : RaEntry) (m : Memory) (es : List Event) : State :=
  ((s.setRa k e).setRab k m).emitAll es

section
variable (s : State) {k j : Key} (e : RaEntry) (m : Memory) (es : List Event)

@[simp] theorem State.writeKey_trace : (s.writeKey k e m es).trace = s.trace ++ es := rfl

@[simp] theorem State.writeKey_raAt_self : (s.writeKey k e m es).raAt k = e := s.raAt_setRa_self k e

@[simp] theorem State.writeKey_rabAt_self : (s.writeKey k e m es).rabAt k = m := (s.setRa k e).rabAt_setRab_self k m

theorem State.writeKey_raAt_of_ne (h : j ≠ k) : (s.writeKey k e m es).raAt j = s.raAt j := s.raAt_setRa_of_ne e h.symm

theorem State.writeKey_rabAt_of_ne (h : j ≠ k) : (s.writeKey k e m es).rabAt j = s.rabAt j :=
  (s.setRa k e).rabAt_setRab_of_ne m h.symm

@[simp] theorem rabRead_writeKey (x n : Nat) : rabRead (s.writeKey k e m es) k x n = m.readBytes x n :=
  rabRead_setRab (s.setRa k e) k m x n

theorem sameOutsideTable_writeKey (k : Key) : SameOutsideTable s (s.writeKey k e m es) :=
  ⟨rfl, rfl, rfl, rfl, rfl, rfl, rfl, rfl, rfl⟩

theorem sameOutsideTable_dropEntry (k : Key) : SameOutsideTable s (s.dropEntry k) :=
  ⟨rfl, rfl, rfl, rfl, rfl, rfl, rfl, rfl, rfl⟩

theorem State.dropEntry_eq_writeKey (k : Key) :
    s.dropEntry k = s.writeKey k { s.raAt k with valid := false } (s.rabAt k) [] := by
  rw [State.writeKey, State.emitAll_nil]
  exact ((s.dropEntry k).setRab_rabAt k).symm

theorem State.emitAll_eq_writeKey (k : Key) : s.emitAll es = s.writeKey k (s.raAt k) (s.rabAt k) es := by
  have hra : s.setRa k (s.raAt k) = s := by rw [State.setRa, State.raAt, Vector.set_getElem_self]
  rw [State.writeKey, hra, State.setRab_rabAt]

end

/-! ## What is emitted -/

/-- What DISPATCH emits (R172). -/
def dispatchEvents (s : State) (t : TypeId) (bytes : List Byte) : List Event :=
  if dispatchPasses s t bytes then [.deliver t bytes] else []

/-- What RX_END emits for the accumulated bytes: the delivery, if the filter passes, and the acknowledgment, when the checksum
is good (R124, R161). -/
def messageEvents (s : State) (p : Prio) (a : Addr) (t : TypeId) (acc : List Byte) : List Event :=
  match cksumOk acc with
  | some (true, body) => dispatchEvents s t body ++ [.txf (ackFrame s.par (s.ackPrio p) a t)]
  | _ => []

section
variable (s : State) (p : Prio) (a : Addr) (t : TypeId)

theorem dispatch_eq_emitAll (bytes : List Byte) : dispatch s t bytes = s.emitAll (dispatchEvents s t bytes) := by
  rw [dispatch, dispatchEvents]
  split
  · rfl
  · exact s.emitAll_nil.symm

theorem finishMessage_eq_emitAll (acc : List Byte) : finishMessage s p a t acc = s.emitAll (messageEvents s p a t acc) := by
  rw [finishMessage, messageEvents]
  rcases cksumOk acc with _ | ⟨_ | _, body⟩
  · exact s.emitAll_nil.symm
  · exact s.emitAll_nil.symm
  · simp only [dispatch_eq_emitAll, State.emitAll, ← List.append_assoc]
    rfl

theorem dispatchPasses_iff (bytes : List Byte) :
    dispatchPasses s t bytes = true ↔ (s.regAt t).valid = true ∧ (s.regAt t).size.toNat ≤ bytes.length := by
  rw [dispatchPasses, Bool.and_eq_true_iff, decide_eq_true_iff]

theorem dispatchEvents_eq_ite (bytes : List Byte) :
    dispatchEvents s t bytes =
      if (s.regAt t).valid = true ∧ (s.regAt t).size.toNat ≤ bytes.length then [.deliver t bytes] else [] := by
  simp only [dispatchEvents, dispatchPasses_iff]

theorem messageEvents_nil : messageEvents s p a t [] = [] := rfl

theorem messageEvents_append (body : List Byte) (c : Byte) :
    messageEvents s p a t (body ++ [c]) =
      if crc8 body = c then dispatchEvents s t body ++ [Event.txf (ackFrame s.par (s.ackPrio p) a t)] else [] := by
  rw [messageEvents, cksumOk_append]
  by_cases h : crc8 body = c
  · simp [h]
  · simp [h]

end

theorem dispatchEvents_congr {s s' : State} (hreg : s'.reg = s.reg) (t : TypeId) (bytes : List Byte) :
    dispatchEvents s' t bytes = dispatchEvents s t bytes := by
  have hentry : s'.regAt t = s.regAt t := by simp only [State.regAt, hreg]
  rw [dispatchEvents_eq_ite, dispatchEvents_eq_ite, hentry]

/-- What is emitted for a message depends on the parameters and the registry alone. -/
theorem messageEvents_congr {s s' : State} (hpar : s'.par = s.par) (hreg : s'.reg = s.reg) (p : Prio) (a : Addr) (t : TypeId)
    (acc : List Byte) : messageEvents s' p a t acc = messageEvents s p a t acc := by
  simp only [messageEvents, dispatchEvents_congr hreg, State.ackPrio, hpar]

/-! ## The receive operations -/

section
variable {s : State} {k : Key} {now : Time}

theorem lookup_absent (hv : (s.raAt k).valid = false) : lookup s k now = (.absent, s) := if_pos hv

theorem lookup_expired (hv : (s.raAt k).valid = true) (he : 500 < (now - (s.raAt k).ts).toNat) :
    lookup s k now = (.expired, s.dropEntry k) := by
  rw [lookup, if_neg (by simp [hv]), if_pos ((isExpired_iff _ _).2 he)]

/-- What RX_MIDDLE and RX_END have in common: nothing on an absent entry, the removal of one that is expired or that `n` more
bytes would make too long, and `live` otherwise (R123, R124, R127). -/
def onLive (s : State) (k : Key) (now : Time) (n : Nat) (live : Host.Outcome State Fault Refusal) :
    Host.Outcome State Fault Refusal :=
  if (s.raAt k).valid = false then .next s
  else if isExpired now (s.raAt k).ts || wouldOverflow s k n then .next (s.dropEntry k)
  else live

variable {n : Nat} {live : Host.Outcome State Fault Refusal}

theorem onLive_absent (hv : (s.raAt k).valid = false) : onLive s k now n live = .next s := if_pos hv

theorem onLive_dropped (hv : (s.raAt k).valid = true)
    (h : 500 < (now - (s.raAt k).ts).toNat ∨ ∃ c ∈ s.par.raCap, c < (s.raAt k).len + n) :
    onLive s k now n live = .next (s.dropEntry k) := by
  rw [onLive, if_neg (by simp [hv]), if_pos]
  rwa [Bool.or_eq_true_iff, isExpired_iff, wouldOverflow_iff]

theorem onLive_live (hv : (s.raAt k).valid = true) (hts : (now - (s.raAt k).ts).toNat ≤ 500)
    (hroom : ∀ c ∈ s.par.raCap, (s.raAt k).len + n ≤ c) : onLive s k now n live = live := by
  rw [onLive, if_neg (by simp [hv]), if_neg]
  rw [Bool.not_eq_true, Bool.or_eq_false_iff, isExpired_eq_false_iff, wouldOverflow_eq_false_iff]
  exact ⟨hts, hroom⟩

variable (p : Prio) (a : Addr) (t : TypeId) (data : List Byte)

/-- RX_START with room for its payload (R122). -/
theorem exec_rxStart (hk : kidx (packId p a s.par.seqStart t) = k) (hroom : ∀ c ∈ s.par.raCap, data.length ≤ c) :
    exec (.rxStart p a t data now) s =
      .next (s.writeKey k { valid := true, ts := now, len := data.length } ((s.rabAt k).writeBytes 0 data) []) := by
  subst hk
  rw [exec, execRxStart, rabWrite_setRa_fits (by simpa only [Nat.zero_add] using hroom), State.writeKey, State.emitAll_nil]
  rfl

/-- RX_MIDDLE appends to a live entry and does not refresh its time (R123, R128). -/
theorem exec_rxMiddle (hk : kidx (packId p a s.par.seqMiddle t) = k) :
    exec (.rxMiddle p a t data now) s = onLive s k now data.length
      (.next (s.writeKey k { s.raAt k with len := (s.raAt k).len + data.length }
        ((s.rabAt k).writeBytes (s.raAt k).len data) [])) := by
  subst hk
  rw [exec, execRxMiddle, onLive]
  generalize kidx (packId p a s.par.seqMiddle t) = k
  rcases lookup_cases s k now with ⟨hv, e⟩ | ⟨hv, he, e⟩ | ⟨hv, he, e⟩
  · simp [e, hv]
  · simp [e, hv, he]
  · simp only [e, hv, he, Bool.true_eq_false, if_false, Bool.false_or]
    split
    · rfl
    · next hcap =>
      have hroom := (wouldOverflow_eq_false_iff ..).1 (Bool.eq_false_of_not_eq_true hcap)
      rw [rabWrite_setRa_fits hroom, State.writeKey, State.emitAll_nil]
      rfl

/-- RX_END appends to a live entry, removes it and finishes the message (R124). -/
theorem exec_rxEnd (hk : kidx (packId p a s.par.seqEnd t) = k) :
    exec (.rxEnd p a t data now) s = onLive s k now data.length
      ((((s.rabAt k).writeBytes (s.raAt k).len data).readBytes 0 ((s.raAt k).len + data.length)).elim
        (.fault .unwrittenByte) fun acc =>
          .next (s.writeKey k { s.raAt k with valid := false } ((s.rabAt k).writeBytes (s.raAt k).len data)
            (messageEvents s p a t acc))) := by
  subst hk
  rw [exec, execRxEnd, onLive]
  generalize kidx (packId p a s.par.seqEnd t) = k
  rcases lookup_cases s k now with ⟨hv, e⟩ | ⟨hv, he, e⟩ | ⟨hv, he, e⟩
  · simp [e, hv]
  · simp [e, hv, he]
  · simp only [e, hv, he, Bool.true_eq_false, if_false, Bool.false_or]
    split
    · rfl
    · next hcap =>
      have hroom := (wouldOverflow_eq_false_iff ..).1 (Bool.eq_false_of_not_eq_true hcap)
      rw [State.dropEntry, rabWrite_setRa_fits hroom]
      simp only [rabRead_setRab]
      split
      · next hlen =>
        rw [Nat.lt_one_iff.1 hlen]
        exact congrArg _ (State.emitAll_nil _).symm
      · cases ((s.rabAt k).writeBytes (s.raAt k).len data).readBytes 0 ((s.raAt k).len + data.length) with
        | none => rfl
        | some acc => exact congrArg _ (finishMessage_eq_emitAll _ p a t acc)

end

/-- RX_SINGLE dispatches its payload (R121). -/
theorem exec_rxSingle (s : State) (p : Prio) (a : Addr) (t : TypeId) (data : List Byte) (now : Time) :
    exec (.rxSingle p a t data now) s = .next (s.emitAll (dispatchEvents s t data)) :=
  congrArg _ (dispatch_eq_emitAll s t data)

/-! ## What each receive operation leaves -/

/-- What bytes stored from `off` in the buffer of key `k` leave alone, the events apart (R129). -/
theorem writeKey_frame (s : State) (k : Key) (e : RaEntry) (off : Nat) (data : List Byte) (es : List Event) :
    let u := s.writeKey k e ((s.rabAt k).writeBytes off data) es
    (∀ j, j ≠ k → u.raAt j = s.raAt j) ∧ (∀ j, j ≠ k → u.rabAt j = s.rabAt j) ∧
      (∀ x, x < off ∨ off + data.length ≤ x → (u.rabAt k).read x = (s.rabAt k).read x) ∧ SameOutsideTable s u := by
  refine ⟨fun j hj => s.writeKey_raAt_of_ne _ _ _ hj, fun j hj => s.writeKey_rabAt_of_ne _ _ _ hj, fun x hx => ?_,
    sameOutsideTable_writeKey s _ _ _ k⟩
  rw [State.writeKey_rabAt_self]
  exact Memory.read_writeBytes_outside _ _ _ hx

/-- What RX_MIDDLE and RX_END leave when they drop an entry: its valid bit cleared, and everything else as it was. -/
theorem dropEntry_frame (s : State) (k : Key) :
    (s.dropEntry k).raAt k = { s.raAt k with valid := false } ∧ (∀ j, j ≠ k → (s.dropEntry k).raAt j = s.raAt j) ∧
      (s.dropEntry k).rab = s.rab ∧ (s.dropEntry k).trace = s.trace ∧ SameOutsideTable s (s.dropEntry k) :=
  ⟨s.raAt_dropEntry_self k, fun _ hj => s.raAt_setRa_of_ne _ hj.symm, rfl, rfl, sameOutsideTable_dropEntry s k⟩

/-- Settles O21: RX_START writes its key once, from offset 0. -/
theorem rxStartCreatesEntry : Obligations.RxStartCreatesEntry := by
  intro p a t data now s hlen hpar k
  obtain ⟨hra, hrab, hbytes, hsame⟩ := writeKey_frame s k { valid := true, ts := now, len := data.length } 0 data []
  exact ⟨_, exec_rxStart (k := k) p a t data rfl (payload_fits hpar hlen), by rw [State.writeKey_raAt_self],
    by rw [State.writeKey_raAt_self], by rw [State.writeKey_raAt_self],
    by rw [rabRead_writeKey, Memory.readBytes_writeBytes], hra, hrab, fun x hx => hbytes x (.inr (by omega)),
    List.append_nil _, hsame⟩

/-- Settles O22: RX_MIDDLE writes its key once, at the end of the bytes accumulated, or drops the entry. -/
theorem rxMiddleDropsOrAppends : Obligations.RxMiddleDropsOrAppends := by
  intro p a t data now s k
  rw [exec_rxMiddle (k := k) p a t data rfl]
  refine ⟨onLive_absent, fun hv h => ⟨_, onLive_dropped hv h, dropEntry_frame s k⟩, fun hv hts hroom => ?_⟩
  obtain ⟨hra, hrab, hbytes, hsame⟩ :=
    writeKey_frame s k { s.raAt k with len := (s.raAt k).len + data.length } (s.raAt k).len data []
  exact ⟨_, onLive_live hv hts hroom, by rwa [State.writeKey_raAt_self], by rw [State.writeKey_raAt_self],
    by rw [State.writeKey_raAt_self], by rw [rabRead_writeKey, Memory.readBytes_writeBytes],
    fun acc hacc => by rw [rabRead_writeKey, State.writeKey_raAt_self, rabRead_append hacc], hra, hrab, hbytes,
    List.append_nil _, hsame⟩

/-- Settles O23: RX_END writes its key once, at the end of the bytes accumulated, and emits what the bytes as a whole call for; or
it drops the entry. -/
theorem rxEndDropsOrCompletes : Obligations.RxEndDropsOrCompletes := by
  intro p a t data now s k
  rw [exec_rxEnd (k := k) p a t data rfl]
  refine ⟨onLive_absent, fun hv h => ⟨_, onLive_dropped hv h, dropEntry_frame s k⟩, fun acc hv hts hroom hacc => ?_⟩
  have happend := rabRead_append hacc data
  obtain ⟨hra, hrab, hbytes, hsame⟩ := writeKey_frame s k { s.raAt k with valid := false } (s.raAt k).len data
    (messageEvents s p a t (acc ++ data))
  refine ⟨_, (onLive_live hv hts hroom).trans (by rw [happend, Option.elim_some]), State.writeKey_raAt_self .., ?_,
    fun hnil => ?_, fun body c hbody => ⟨fun hbad => ?_, fun hgood => ?_⟩, hra, hrab, hbytes, hsame⟩
  · rwa [rabRead_writeKey]
  · rw [hnil, State.writeKey_trace, messageEvents_nil, List.append_nil]
  · rw [hbody, State.writeKey_trace, messageEvents_append, if_neg hbad, List.append_nil]
  · rw [hbody, State.writeKey_trace, messageEvents_append, if_pos hgood, dispatchEvents_eq_ite, List.append_assoc]
    rfl

/-- Settles O20: RX_SINGLE emits what DISPATCH does, and that is the filter's answer. -/
theorem rxSingleDelivers : Obligations.RxSingleDelivers := by
  intro p a t data now s
  rw [exec_rxSingle, dispatchEvents_eq_ite]
  refine ⟨fun hv hsize => by rw [if_pos ⟨hv, hsize⟩]; rfl, fun hdrop => ?_⟩
  rw [if_neg, State.emitAll_nil]
  rintro ⟨hv, hsize⟩
  rcases hdrop with hinvalid | hshort
  · exact absurd (hinvalid.symm.trans hv) nofun
  · exact Nat.not_le.2 hshort hsize

/-- Settles O25: LOOKUP's three answers, and EXPIRED's test on a valid entry. -/
theorem lookupAndExpiry : Obligations.LookupAndExpiry := by
  intro k now s
  have hexpired : (s.raAt k).valid = true →
      exec (.expired k now) s = .next { s with fnOut := some (.expiry (isExpired now (s.raAt k).ts)) } := fun hv => if_pos hv
  refine ⟨fun hv => ?_, fun hv he => ⟨?_, ?_⟩, fun hv he => ⟨?_, ?_⟩⟩
  · rw [exec, execLookup, lookup_absent hv]; rfl
  · rw [exec, execLookup, lookup_expired hv he]; rfl
  · rw [hexpired hv, (isExpired_iff _ _).2 he]
  · rw [exec, execLookup, lookup_live hv he]; rfl
  · rw [hexpired hv, (isExpired_eq_false_iff _ _).2 he]

/-- Settles O26: the answer is the free value that the model takes. -/
theorem expiredOfInvalidEntryCompletes : Obligations.ExpiredOfInvalidEntryCompletes :=
  fun k now s hv => ⟨Config.unstatedExpired s.freeCount k now, if_neg (by simp [hv])⟩

/-- Settles O51: by the effect of the operation: RX_START writes the entry of its key, and the others keep RA[k].ts of every entry. -/
theorem onlyStartWritesTimestamp : Obligations.OnlyStartWritesTimestamp := by
  intro i s u k h hts
  cases exec_effect h with
  | reset => exact .inl rfl
  | rxStart p a t data now mem =>
    by_cases hk : kidx (packId p a s.par.seqStart t) = k
    · exact .inr ⟨p, a, t, data, now, rfl, hk.symm, by simp [hk]⟩
    · exact absurd (congrArg RaEntry.ts (s.raAt_setRa_of_ne _ hk)) hts
  | rxMiddle p a t data now k' valid len =>
    exact absurd (State.raAt_setRa_keeps RaEntry.ts (e := { s.raAt k' with valid := valid, len := len }) rfl k) hts
  | rxEnd p a t data now k' => exact absurd (s.raAt_dropEntry_ts k' k) hts
  | lookup k' now => exact absurd (s.raAt_dropEntry_ts k' k) hts
  | _ => exact absurd rfl hts

end Sys2Proof.Machine
end

section
/-! PROOFS. Isolation of keys (spec/42_reassembly.md R129, spec/20_memory.md R71): a data frame makes one write to its own key, the
same in any two states that agree on what it reads. -/

namespace Sys2Proof.Machine

/-! ## One write in two states -/

/-- Two states agree on what an operation on a data frame of key `k` reads. -/
structure SameKey (k : Key) (s s' : State) : Prop where
  par : s'.par = s.par
  reg : s'.reg = s.reg
  entry : s'.raAt k = s.raAt k
  bytes : s'.rabAt k = s.rabAt k

theorem SameKey.refl (k : Key) (s : State) : SameKey k s s := ⟨rfl, rfl, rfl, rfl⟩

/-- If `o` completes, it and `o'` make one and the same write to key `k`, each on its own state. -/
def WritesAlike (k : Key) (s s' : State) (o o' : Host.Outcome State Fault Refusal) : Prop :=
  ∀ u, o = .next u → ∃ e m es, u = s.writeKey k e m es ∧ o' = .next (s'.writeKey k e m es)

section
variable {k : Key} {s s' : State}

theorem writesAlike_next (e : RaEntry) (m : Memory) (es : List Event) :
    WritesAlike k s s' (.next (s.writeKey k e m es)) (.next (s'.writeKey k e m es)) := by
  intro u hu
  cases hu
  exact ⟨e, m, es, rfl, rfl⟩

variable (h : SameKey k s s')
include h

theorem SameKey.writesAlike_emitAll (es : List Event) :
    WritesAlike k s s' (.next (s.emitAll es)) (.next (s'.emitAll es)) := by
  rw [s.emitAll_eq_writeKey es k, s'.emitAll_eq_writeKey es k, h.entry, h.bytes]
  exact writesAlike_next _ _ _

/-- A guard that reads the parameters and the entry alone passes both operations or neither. -/
theorem SameKey.writesAlike_onLive {now : Time} {n : Nat} {live live' : Host.Outcome State Fault Refusal}
    (hlive : WritesAlike k s s' live live') : WritesAlike k s s' (onLive s k now n live) (onLive s' k now n live') := by
  have hcap : wouldOverflow s' k n = wouldOverflow s k n := by simp only [wouldOverflow, withinCap, h.entry, h.par]
  rw [onLive, onLive, h.entry, hcap]
  split
  · simpa only [State.emitAll_nil] using h.writesAlike_emitAll []
  split
  · rw [State.dropEntry_eq_writeKey, State.dropEntry_eq_writeKey, h.entry, h.bytes]
    exact writesAlike_next _ _ _
  · exact hlive

variable (p : Prio) (a : Addr) (t : TypeId) (data : List Byte) (now : Time)

theorem SameKey.writesAlike_rxStart (hk : kidx (packId p a s.par.seqStart t) = k) :
    WritesAlike k s s' (exec (.rxStart p a t data now) s) (exec (.rxStart p a t data now) s') := by
  intro u hu
  have hroom : ∀ c ∈ s.par.raCap, data.length ≤ c := by
    have hwrite := hu
    rw [exec, execRxStart, outcome_eq_next, rabWrite_ok, withinCap_iff, Nat.zero_add] at hwrite
    exact hwrite.1
  have hu' := exec_rxStart (s := s') (k := k) (now := now) p a t data (by rwa [h.par]) (by rwa [h.par])
  rw [h.bytes] at hu'
  rw [exec_rxStart p a t data hk hroom] at hu
  cases hu
  exact ⟨_, _, _, rfl, hu'⟩

theorem SameKey.writesAlike_rxMiddle (hk : kidx (packId p a s.par.seqMiddle t) = k) :
    WritesAlike k s s' (exec (.rxMiddle p a t data now) s) (exec (.rxMiddle p a t data now) s') := by
  rw [exec_rxMiddle p a t data hk, exec_rxMiddle (s := s') (k := k) p a t data (by rwa [h.par]), h.entry, h.bytes]
  exact h.writesAlike_onLive (writesAlike_next _ _ _)

theorem SameKey.writesAlike_rxEnd (hk : kidx (packId p a s.par.seqEnd t) = k) :
    WritesAlike k s s' (exec (.rxEnd p a t data now) s) (exec (.rxEnd p a t data now) s') := by
  rw [exec_rxEnd p a t data hk, exec_rxEnd (s := s') (k := k) p a t data (by rwa [h.par]), h.entry, h.bytes]
  refine h.writesAlike_onLive ?_
  cases ((s.rabAt k).writeBytes (s.raAt k).len data).readBytes 0 ((s.raAt k).len + data.length) with
  | none =>
    intro u hu
    cases hu
  | some acc =>
    rw [Option.elim_some, Option.elim_some, messageEvents_congr h.par h.reg]
    exact writesAlike_next _ _ _

theorem SameKey.writesAlike_rxSingle :
    WritesAlike k s s' (exec (.rxSingle p a t data now) s) (exec (.rxSingle p a t data now) s') := by
  rw [exec_rxSingle, exec_rxSingle, dispatchEvents_congr h.reg]
  exact h.writesAlike_emitAll _

end

/-- Whatever a data frame does is one write to its own key, which depends on nothing outside what `SameKey` compares. -/
theorem SameKey.writesAlike_classify {id : Ident} {s s' : State} (h : SameKey (kidx id) s s') (ht : (dec id).typ ≠ 7)
    (data : List Byte) (now : Time) :
    WritesAlike (kidx id) s s' (exec (classify s.par id data now) s) (exec (classify s.par id data now) s') := by
  obtain ⟨p, a, sq, t, rfl⟩ := exists_packId id
  rw [dec_packId] at ht
  simp only [classify, dec_packId]
  split
  · next hack => exact absurd hack ht
  split
  · exact h.writesAlike_rxStart p a t data now (kidx_packId ..)
  split
  · exact h.writesAlike_rxMiddle p a t data now (kidx_packId ..)
  split
  · exact h.writesAlike_rxEnd p a t data now (kidx_packId ..)
  · exact h.writesAlike_rxSingle p a t data now

/-- Settles O47: a data frame writes its own key alone. -/
theorem receiveLeavesOtherKeys : Obligations.ReceiveLeavesOtherKeys := by
  intro id data now s u j ht hj hu
  obtain ⟨e, m, es, rfl, -⟩ := (SameKey.refl (kidx id) s).writesAlike_classify ht data now u hu
  exact ⟨s.writeKey_raAt_of_ne e m es hj, s.writeKey_rabAt_of_ne e m es hj⟩

/-- Settles O48: in states that agree on its key a data frame makes the same write. -/
theorem receiveDependsOnOwnKey : Obligations.ReceiveDependsOnOwnKey := by
  intro id data now s s' u ht hpar hreg hra hrab hu
  obtain ⟨e, m, es, rfl, hu'⟩ := SameKey.writesAlike_classify ⟨hpar, hreg, hra, hrab⟩ ht data now u hu
  exact ⟨_, es, hu', rfl, rfl, by simp, by simp⟩

end Sys2Proof.Machine
end

section
/-! PROOFS. Fragmentation and reassembly (spec/42_reassembly.md R134): the frames of a message, received in order, accumulate its
stream, whose checksum is good. -/

namespace Sys2Proof.Machine

/-! ## A message cut into frames (R94, R143) -/

/-- Eight bytes of a stream, or what is left of it: the payload of fragment `j`. -/
def piece (bs : List Byte) (j : Nat) : List Byte := (bs.drop (8 * j)).take (fragLen bs.length j)

theorem piece_eq_take_eight (bs : List Byte) (j : Nat) : piece bs j = (bs.drop (8 * j)).take 8 := by
  have hmax : Config.maxDlc = 8 := rfl
  rw [piece, List.take_eq_take_iff, List.length_drop, fragLen]
  omega

/-- The pieces in order give back what they were cut from. -/
theorem flatten_pieces (bs : List Byte) (n : Nat) : ((List.range n).map (piece bs)).flatten = bs.take (8 * n) := by
  induction n with
  | zero => rfl
  | succ n ih =>
    rw [List.range_succ, List.map_append, List.flatten_append, ih, List.map_singleton, List.flatten_singleton,
      piece_eq_take_eight, Nat.mul_succ, List.take_add]

theorem frag_single (par : Params) (p : Prio) (a : Addr) (t : TypeId) {m : List Byte} (hm : m.length ≤ 8) :
    frag par p a t m = [{ id := packId p a par.seqSingle t, data := m }] := by
  have hmulti : isMulti m = false := Bool.eq_false_of_not_eq_true (mt (isMulti_iff m).1 (Nat.not_lt.2 hm))
  have hstream : stream m = m := by simp [stream, hmulti]
  have hcount : frameCount m = 1 := by simp [frameCount, hmulti]
  have hpiece : piece (stream m) 0 = m := by rw [piece_eq_take_eight, hstream, List.drop_zero, List.take_of_length_le hm]
  have hfirst : fragment par p a t m 0 = { id := packId p a par.seqSingle t, data := m } := by
    rw [fragment, seqTag, if_pos hmulti]
    exact congrArg _ hpiece
  rw [frag, hcount, ← hfirst]
  rfl

/-- The frames of a multi-frame message: one tagged Start, then Middle ones, then one tagged End, whose payloads in order are the
message and its checksum. -/
theorem frag_multi (par : Params) (p : Prio) (a : Addr) (t : TypeId) {m : List Byte} (hm : 8 < m.length) :
    ∃ (d : List Byte) (ds : List (List Byte)) (d' : List Byte), d ++ (ds.flatten ++ d') = m ++ [crc8 m] ∧
      frag par p a t m = { id := packId p a par.seqStart t, data := d } ::
        (ds.map (Frame.mk (packId p a par.seqMiddle t)) ++ [{ id := packId p a par.seqEnd t, data := d' }]) := by
  have hmulti := (isMulti_iff m).2 hm
  have hstream : stream m = m ++ [crc8 m] := if_pos hmulti
  have hcount : frameCount m = (m.length + 8) / 8 := if_pos hmulti
  obtain ⟨r, hr⟩ : ∃ r, frameCount m = r + 2 := ⟨frameCount m - 2, by omega⟩
  have hlen : (stream m).length ≤ 8 * (r + 2) := by
    rw [hstream, List.length_append, List.length_singleton]
    omega
  have hrange : List.range (r + 2) = 0 :: ((List.range r).map Nat.succ ++ [r + 1]) := by
    rw [List.range_succ, List.range_succ_eq_map, List.cons_append]
  have hfragment : ∀ j sq, seqTag par true (r + 2) j = sq →
      fragment par p a t m j = { id := packId p a sq t, data := piece (stream m) j } := by
    rintro j _ rfl
    rw [fragment, hmulti, hr]
    rfl
  have hmiddle : ∀ j ∈ List.range r, fragment par p a t m (j + 1) =
      { id := packId p a par.seqMiddle t, data := piece (stream m) (j + 1) } := fun j hj =>
    hfragment _ _ (by simp [seqTag, Nat.ne_of_lt (List.mem_range.1 hj)])
  have hall := flatten_pieces (stream m) (r + 2)
  rw [List.take_of_length_le hlen, hstream, hrange] at hall
  refine ⟨piece (stream m) 0, (List.range r).map fun j => piece (stream m) (j + 1), piece (stream m) (r + 1), ?_, ?_⟩
  · simpa [hstream, Function.comp_def] using hall
  · rw [frag, hr, hrange, List.map_cons, List.map_append, List.map_map, List.map_map, List.map_singleton,
      hfragment 0 _ rfl, hfragment (r + 1) par.seqEnd (by simp [seqTag])]
    exact congrArg (fun fs => _ :: (fs ++ _)) (List.map_congr_left hmiddle)

/-! ## The frames received in order (R134) -/

theorem execAll_cons_of_next {i : Instr} {s u : State} (h : exec i s = .next u) (is : List Instr) :
    execAll (i :: is) s = execAll is u := by
  rw [execAll, h]

/-- The key of a message's frames; the sequence tag makes no difference to it. -/
def messageKey (par : Params) (p : Prio) (a : Addr) (t : TypeId) : Key := kidx (packId p a par.seqStart t)

/-- In `u` the entry of key `k`, created at `first`, has accumulated `bs`, and no event has been emitted since `s`. -/
structure Accumulated (s : State) (k : Key) (first : Time) (bs : List Byte) (u : State) : Prop where
  par : u.par = s.par
  reg : u.reg = s.reg
  trace : u.trace = s.trace
  entry : u.raAt k = { valid := true, ts := first, len := bs.length }
  bytes : rabRead u k 0 bs.length = some bs

section
variable {s u : State} {first now : Time} {p : Prio} {a : Addr} {t : TypeId}

theorem accumulated_rxStart {data : List Byte} (hroom : ∀ c ∈ s.par.raCap, data.length ≤ c) :
    ∃ u, exec (.rxStart p a t data first) s = .next u ∧ Accumulated s (messageKey s.par p a t) first data u := by
  refine ⟨_, exec_rxStart (k := messageKey s.par p a t) p a t data rfl hroom, rfl, rfl, by simp, by simp, ?_⟩
  simp [Memory.readBytes_writeBytes]

variable {bs data : List Byte} (h : Accumulated s (messageKey s.par p a t) first bs u) (hts : (now - first).toNat ≤ 500)
  (hroom : ∀ c ∈ s.par.raCap, bs.length + data.length ≤ c)
include h hts hroom

/-- RX_MIDDLE and RX_END find the entry live. -/
theorem Accumulated.onLive_eq {live : Host.Outcome State Fault Refusal} :
    onLive u (messageKey s.par p a t) now data.length live = live :=
  onLive_live (by rw [h.entry]) (by rwa [h.entry]) (by rwa [h.entry, h.par])

theorem Accumulated.rxMiddle :
    ∃ v, exec (.rxMiddle p a t data now) u = .next v ∧ Accumulated s (messageKey s.par p a t) first (bs ++ data) v := by
  have hexec := exec_rxMiddle (s := u) (k := messageKey s.par p a t) (now := now) p a t data (kidx_packId ..)
  rw [h.onLive_eq hts hroom, h.entry] at hexec
  refine ⟨_, hexec, h.par, h.reg, ?_, ?_, ?_⟩
  · simp [h.trace]
  · simp
  · simpa using rabRead_append h.bytes data

theorem Accumulated.rxEnd :
    ∃ v, exec (.rxEnd p a t data now) u = .next v ∧ v.trace = s.trace ++ messageEvents s p a t (bs ++ data) := by
  have hexec := exec_rxEnd (s := u) (k := messageKey s.par p a t) (now := now) p a t data (kidx_packId ..)
  rw [h.onLive_eq hts hroom, h.entry, rabRead_append h.bytes data] at hexec
  refine ⟨_, hexec, ?_⟩
  rw [State.writeKey_trace, h.trace, messageEvents_congr h.par h.reg]

end

/-- The frames after the first, each in time and with room for all: RX_MIDDLE on every frame but the last, and RX_END on that. -/
theorem Accumulated.execAll_rest {s u : State} {first : Time} {p : Prio} {a : Addr} {t : TypeId} {bs : List Byte}
    (h : Accumulated s (messageKey s.par p a t) first bs u) (ht : t ≠ Config.ackType) (hpar : s.par.SeqDistinct)
    (ds : List (List Byte)) (d' : List Byte) {later : List Time} (hlater : later.length = ds.length + 1)
    (hts : ∀ now ∈ later, (now - first).toNat ≤ 500)
    (hroom : ∀ c ∈ s.par.raCap, (bs ++ (ds.flatten ++ d')).length ≤ c) :
    ∃ v, execAll (receiveAll s.par ((ds.map (Frame.mk (packId p a s.par.seqMiddle t)) ++
        [Frame.mk (packId p a s.par.seqEnd t) d']).zip later)) u = .next v ∧
      v.trace = s.trace ++ messageEvents s p a t (bs ++ (ds.flatten ++ d')) := by
  induction ds generalizing u bs later with
  | nil =>
    obtain ⟨now, rfl⟩ := List.length_eq_one_iff.1 hlater
    obtain ⟨v, hv, htrace⟩ := h.rxEnd (hts now List.mem_cons_self) (by simpa using hroom)
    refine ⟨v, ?_, htrace⟩
    rw [← classify_end p a d' now ht hpar] at hv
    exact execAll_cons_of_next hv []
  | cons d ds ih =>
    obtain ⟨now, later, rfl⟩ := List.exists_cons_of_length_eq_add_one hlater
    have hall : bs ++ ((d :: ds).flatten ++ d') = bs ++ d ++ (ds.flatten ++ d') := by simp
    rw [hall] at hroom ⊢
    have hd : ∀ c ∈ s.par.raCap, bs.length + d.length ≤ c := fun c hc => by
      have := hroom c hc
      rw [List.length_append, List.length_append] at this
      omega
    obtain ⟨v, hv, hacc⟩ := h.rxMiddle (hts now List.mem_cons_self) hd
    obtain ⟨w, hw, htrace⟩ := ih hacc (Nat.succ.inj hlater) (fun x hx => hts x (List.mem_cons_of_mem _ hx)) hroom
    refine ⟨w, ?_, htrace⟩
    rw [← hw, ← execAll_cons_of_next hv, ← classify_middle p a d now ht hpar]
    rfl

/-- A message whose handler takes it is delivered and acknowledged once its stream is complete. -/
theorem messageEvents_stream {s : State} {t : TypeId} {m : List Byte} (hv : (s.regAt t).valid = true)
    (hsize : (s.regAt t).size.toNat ≤ m.length) (p : Prio) (a : Addr) :
    messageEvents s p a t (m ++ [crc8 m]) = [.deliver t m, .txf (ackFrame s.par (s.ackPrio p) a t)] := by
  rw [messageEvents_append, if_pos rfl, dispatchEvents_eq_ite, if_pos ⟨hv, hsize⟩]
  rfl

/-- Settles O45: a message of one frame is dispatched at once; the frames of a longer one accumulate its stream, whose checksum
is good. -/
theorem fragmentationRoundTrip : Obligations.FragmentationRoundTrip := by
  intro p a t m first later s hinv ht _ hroom hv hsize hlength hts
  obtain ⟨hpar, -⟩ := hinv.par
  rcases le_or_gt m.length 8 with hm | hm
  · rw [frag_single _ _ _ _ hm] at hlength ⊢
    refine ⟨s.emitAll [.deliver t m], ?_, ?_⟩
    · have hexec := exec_rxSingle s p a t m first
      rw [dispatchEvents_eq_ite, if_pos ⟨hv, hsize⟩, ← classify_single p a m first ht hpar] at hexec
      exact execAll_cons_of_next hexec []
    · rw [if_neg (Nat.not_lt.2 hm), List.append_nil]
      rfl
  · obtain ⟨d, ds, d', hstream, hfrag⟩ := frag_multi s.par p a t hm
    rw [hfrag] at hlength ⊢
    have hlater : later.length = ds.length + 1 := by simpa using hlength
    have hfits : ∀ c ∈ s.par.raCap, (d ++ (ds.flatten ++ d')).length ≤ c := by
      rw [hstream]
      simpa using hroom
    have hd : ∀ c ∈ s.par.raCap, d.length ≤ c := fun c hc =>
      Nat.le_trans (by rw [List.length_append]; omega) (hfits c hc)
    obtain ⟨u, hu, hacc⟩ := accumulated_rxStart (p := p) (a := a) (t := t) (first := first) hd
    obtain ⟨v, hv', htrace⟩ := hacc.execAll_rest ht hpar ds d' hlater hts hfits
    refine ⟨v, ?_, ?_⟩
    · rw [← hv', ← execAll_cons_of_next hu, ← classify_start p a d first ht]
      rfl
    · rw [htrace, hstream, messageEvents_stream hv hsize, if_pos hm, List.append_assoc]
      rfl

end Sys2Proof.Machine
end

section
/-! PROOFS. Send, acknowledgment and retry (spec/43_ack_retry.md R140 to R155, R160): what each operation does, one equation for
each of its cases. -/

namespace Sys2Proof.Machine

/-! ## RX_ACK (R160) -/

theorem ackMatches_cons_iff (s : State) (b : Byte) (rest : List Byte) :
    ackMatches s (b :: rest) = true ↔ b.toNat = s.ack.expected.toNat := by
  rw [ackMatches, beq_iff_eq, ← BitVec.toNat_inj, BitVec.toNat_setWidth_of_le (by decide)]

/-- Settles O19: by whether the payload has a first byte that matches the slot. -/
theorem rxAckSetsSatisfied : Obligations.RxAckSetsSatisfied := by
  intro p a sq data now s
  refine ⟨fun b rest hdata hb => ?_, fun hno => ?_⟩
  · subst hdata
    exact congrArg _ (if_pos ((ackMatches_cons_iff s b rest).2 hb))
  · refine congrArg _ (if_neg fun hmatch => ?_)
    obtain ⟨b, rest, hdata, hb⟩ := eq_cons_of_ackMatches hmatch
    exact hno b rest hdata hb

/-! ## Commands during a send (R140, R170) -/

theorem txBusy_iff (s : State) : txBusy s = true ↔ s.tx.state ≠ .idle := by
  rw [← Bool.not_eq_false, ne_eq, txBusy_eq_false_iff]

/-- The two commands that a send in progress holds. -/
def IsHeldCommand (i : Instr) : Prop := (∃ p a t m, i = .send p a t m) ∨ ∃ limit, i = .cfgRetry limit

theorem IsHeldCommand.isHeld_eq {i : Instr} (hi : IsHeldCommand i) (s : State) : isHeld s i = txBusy s := by
  rcases hi with ⟨p, a, t, m, rfl⟩ | ⟨limit, rfl⟩ <;> rfl

theorem IsHeldCommand.exec_of_busy {i : Instr} (hi : IsHeldCommand i) {s : State} (hbusy : txBusy s = true) :
    exec i s = .next s := by
  rcases hi with ⟨p, a, t, m, rfl⟩ | ⟨limit, rfl⟩ <;> exact if_pos hbusy

/-- Settles O18: the step runs the command at its port, which is taken exactly when the engine is idle. -/
theorem commandsHeldDuringSend : Obligations.CommandsHeldDuringSend := by
  intro s i (hi : IsHeldCommand i)
  refine ⟨fun hs => hi.exec_of_busy ((txBusy_iff s).2 hs), fun u turns bytes rest ht ha hc hd => ?_⟩
  have hstep := (stepRunsPresentedOperation s u turns i ht).1 bytes rest ha hc hd
  rw [hi.isHeld_eq] at hstep
  refine ⟨fun hs => ?_, fun hs => ?_⟩
  · have hbusy := (txBusy_iff s).2 hs
    rw [hstep, if_pos hbusy, ← hc]
    exact hi.exec_of_busy hbusy
  · rw [hstep, (txBusy_eq_false_iff s).2 hs]
    rfl

/-! ## SEND (R141, R142) -/

/-- A send of `m` ends with the wait for an acknowledgment: the message is multi-frame and retry-mode is on (R150). -/
abbrev AwaitsAck (s : State) (m : List Byte) : Prop := 8 < m.length ∧ 0 < s.cfg.retryLimit.toNat

/-- The slot that a SEND leaves (R141). -/
def armedSlot (s : State) (t : TypeId) (m : List Byte) : AckSlot :=
  if AwaitsAck s m then { expected := t, satisfied := false } else s.ack

theorem armSlot_isMulti (s : State) (t : TypeId) (m : List Byte) : armSlot s t (isMulti m) = s.setAck (armedSlot s t m) := by
  have harm : (isMulti m && retryMode s) = true ↔ AwaitsAck s m := by
    rw [Bool.and_eq_true_iff, isMulti_iff, retryMode_iff]
  rw [armSlot, armedSlot]
  simp only [harm]
  split <;> rfl

/-- The state that a SEND leaves when it starts a message (R141). -/
def loadSend (s : State) (p : Prio) (a : Addr) (t : TypeId) (m : List Byte) : State :=
  ((s.setTx (startTx s.tx p a t m)).setAck (armedSlot s t m)).setTxb (s.txb.writeBytes 0 (stream m))

section
variable (p : Prio) (a : Addr) {s : State} {t : TypeId} {m : List Byte} (hidle : s.tx.state = .idle)
include hidle

theorem exec_send_rejected (h : t = 7 ∨ s.par.txCap < m.length) :
    exec (.send p a t m) s = .next (s.emit (.done .rejected)) := by
  have hrej : sendRejected s t m = true := by
    rw [← Bool.not_eq_false, sendRejected_eq_false_iff]
    rintro ⟨ht, hm⟩
    exact h.elim ht (Nat.not_lt.2 hm)
  rw [exec, execSend, (txBusy_eq_false_iff s).2 hidle, hrej]
  rfl

theorem exec_send_starts (ht : t ≠ 7) (hm : m.length ≤ s.par.txCap) :
    exec (.send p a t m) s = .next (loadSend s p a t m) := by
  have hwrite : txbWrite ((s.setTx (startTx s.tx p a t m)).setAck (armedSlot s t m)) (stream m) =
      .ok (loadSend s p a t m) := txbWrite_fits (stream_length_le hm)
  rw [exec, execSend, (txBusy_eq_false_iff s).2 hidle, (sendRejected_eq_false_iff s t m).2 ⟨ht, hm⟩, armSlot_isMulti]
  exact congrArg outcome hwrite

end

/-- Settles O34: the rejection is raised and nothing else is done. -/
theorem sendRejected_obligation : Obligations.SendRejected :=
  fun p a _ _ _ hidle h => exec_send_rejected p a hidle h

theorem stream_eq_ite (m : List Byte) : stream m = if m.length ≤ 8 then m else m ++ [crc8 m] := by
  rw [stream, ← ite_not]
  simp only [isMulti_iff, Nat.not_lt]

theorem frameCount_eq_ite (m : List Byte) : frameCount m = if m.length ≤ 8 then 1 else (m.length + 1 + 7) / 8 := by
  rw [frameCount, ← ite_not]
  simp only [isMulti_iff, Nat.not_lt]

theorem frameCount_pos (m : List Byte) : 0 < frameCount m := by
  rw [frameCount_eq_ite]
  split <;> omega

/-- The stream of a message within TX_CAP fits TX.slen. -/
theorem toLen_stream {par : Params} (hpar : par.Ok) {m : List Byte} (hm : m.length ≤ par.txCap) :
    (toLen (stream m).length).toNat = (stream m).length := by
  obtain ⟨-, -, -, hcap⟩ := hpar
  have := stream_length_le hm
  exact toLen_toNat (by omega)

/-- The number of frames of a message within TX_CAP fits TX.nfrag. -/
theorem toLen_frameCount {par : Params} (hpar : par.Ok) {m : List Byte} (hm : m.length ≤ par.txCap) :
    (toLen (frameCount m)).toNat = frameCount m := by
  obtain ⟨-, -, -, hcap⟩ := hpar
  refine toLen_toNat ?_
  rw [frameCount_eq_ite]
  split <;> omega

/-- Settles O35: SEND leaves the state `loadSend`, whose counts lose nothing in their registers. -/
theorem sendStartsTransmission : Obligations.SendStartsTransmission := by
  intro p a t m s hpar hidle ht hm bs
  have hbs : bs = stream m := (stream_eq_ite m).symm
  rw [hbs]
  exact ⟨_, exec_send_starts p a hidle ht hm, rfl, rfl, rfl, rfl, rfl, toLen_stream hpar hm,
    (toLen_frameCount hpar hm).trans (frameCount_eq_ite m), rfl, rfl, rfl, Memory.readBytes_writeBytes s.txb 0 (stream m),
    fun x hx => Memory.read_writeBytes_outside s.txb 0 (stream m) (.inr (by omega)), rfl, rfl, rfl, rfl, rfl, rfl, rfl, rfl, rfl,
    rfl⟩

/-! ## TX_FRAG (R144, R146 to R149) -/

section
variable {s : State} (now : Time)

theorem currentFrame_of_txbRead {data : List Byte}
    (h : txbRead s (8 * s.tx.idx.toNat) (fragLen s.tx.slen.toNat s.tx.idx.toNat) = some data) :
    currentFrame s = some
      { id := packId s.tx.prio s.tx.addr (seqTag s.par s.tx.multi s.tx.nfrag.toNat s.tx.idx.toNat) s.tx.typ
        data := data } := by
  rw [currentFrame, h]

theorem exec_txFrag (hs : s.tx.state = .sending) {f : Frame} (hf : currentFrame s = some f) (txOk : Bool) :
    exec (.txFrag now txOk) s = .next (afterFragment (s.emit (.txf f)) now txOk) := by
  rw [exec, execTxFrag, if_pos hs, hf]

theorem afterFragment_more (h : s.tx.idx.toNat + 1 < s.tx.nfrag.toNat) :
    afterFragment s now true = s.setTx { s.tx with idx := s.tx.idx + 1 } :=
  if_pos ((moreFragments_iff s.tx).2 h)

/-- After the last fragment the send is complete, or the wait begins (R149). -/
theorem afterFragment_last (h : s.tx.nfrag.toNat ≤ s.tx.idx.toNat + 1) :
    afterFragment s now true =
      if s.tx.multi = true ∧ 0 < s.cfg.retryLimit.toNat then s.setTx { s.tx with waitStart := now, state := .waitAck }
      else completeSend s := by
  have hlast : ¬ moreFragments s.tx = true := mt (moreFragments_iff s.tx).1 (Nat.not_lt.2 h)
  rw [afterFragment, if_neg Bool.noConfusion, if_neg hlast, ← ite_not]
  simp [← retryMode_iff, or_iff_not_imp_left]

end

/-- Settles O38: the frame is emitted, and what follows it depends on the answer, the fragments left and retry-mode. -/
theorem txFragTransmits : Obligations.TxFragTransmits := by
  intro now data s hs hread tag sent
  have hexec := exec_txFrag now hs (currentFrame_of_txbRead hread)
  have hassoc : ∀ e, s.trace ++ [sent] ++ [e] = s.trace ++ [sent, e] := fun e => List.append_assoc ..
  have hlast := afterFragment_last (s := s.emit sent) now
  refine ⟨?_, fun hmore => ?_, fun hle hend => ?_, fun hle hmulti hlimit => ?_⟩
  · rw [hexec, ← hassoc]
    rfl
  · rw [hexec]
    exact congrArg _ (afterFragment_more (s := s.emit sent) now hmore)
  · rw [hexec, ← hassoc]
    refine congrArg _ ((hlast hle).trans (if_neg ?_))
    rintro ⟨hmulti, hlimit⟩
    rcases hend with hsingle | hzero
    · exact absurd (hsingle.symm.trans hmulti) nofun
    · exact absurd hlimit (by simp [hzero])
  · rw [hexec]
    refine congrArg _ ((hlast hle).trans (if_pos ⟨hmulti, ?_⟩))
    exact Nat.pos_of_ne_zero fun hzero => hlimit (BitVec.eq_of_toNat_eq hzero)

/-! ## TX_WAIT (R151 to R155) -/

section
variable {s : State} {now : Time}

theorem exec_txWait (hs : s.tx.state = .waitAck) : exec (.txWait now) s = .next (pollAck s now) := if_pos hs

theorem pollAck_satisfied (hack : s.ack.satisfied = true) : pollAck s now = completeSend s := if_pos hack

variable (hack : s.ack.satisfied = false)
include hack

theorem pollAck_early (hearly : (now - s.tx.waitStart).toNat < 100) : pollAck s now = s := by
  rw [pollAck, if_neg (by simp [hack]), if_neg]
  rw [ackTimedOut_iff]
  exact Nat.not_le.2 hearly

/-- A timeout without acknowledgment begins another attempt while the limit allows one, and fails the send otherwise. -/
theorem pollAck_timedOut (hdue : 100 ≤ (now - s.tx.waitStart).toNat) :
    pollAck s now =
      if s.tx.retries.toNat < s.cfg.retryLimit.toNat then
        s.setTx { s.tx with retries := s.tx.retries + 1, idx := 0, state := .sending }
      else raise .failNoack s := by
  rw [pollAck, if_neg (by simp [hack]), if_pos ((ackTimedOut_iff ..).2 hdue)]
  simp only [retryAllowed_iff]

end

/-- Settles O39: the poll asks for the acknowledgment, then for the timeout, then for a retransmission left. -/
theorem txWaitPolls : Obligations.TxWaitPolls := by
  intro now s hs
  rw [exec_txWait hs]
  refine ⟨fun hack => ?_, fun hack hdue hleft => ?_, fun hack hdue hnone => ?_, fun hack hearly => ?_⟩
  · rw [pollAck_satisfied hack]
    rfl
  · rw [pollAck_timedOut hack hdue, if_pos hleft]
    rfl
  · rw [pollAck_timedOut hack hdue, if_neg (Nat.not_lt.2 hnone)]
    exact congrArg (fun tr => Host.Outcome.next { s with tx := { s.tx with state := .idle }, trace := tr })
      (List.append_assoc s.trace _ _)
  · rw [pollAck_early hack hearly]

/-! ## FRAG (R94, R143) -/

section
variable (par : Params) (p : Prio) (a : Addr) (t : TypeId) (m : List Byte)

@[simp] theorem frag_length : (frag par p a t m).length = frameCount m := by
  rw [frag, List.length_map, List.length_range]

@[simp] theorem getElem_frag (j : Nat) (h : j < (frag par p a t m).length) :
    (frag par p a t m)[j] = fragment par p a t m j := by
  simp [frag]

theorem fragment_data (j : Nat) : (fragment par p a t m j).data = piece (stream m) j := rfl

end

theorem piece_length (bs : List Byte) (j : Nat) : (piece bs j).length = min 8 (bs.length - 8 * j) := by
  rw [piece_eq_take_eight, List.length_take, List.length_drop]

/-- Settles O41: the frames are the pieces of the stream, each under the identifier of its place. -/
theorem fragCutsMessage : Obligations.FragCutsMessage := by
  intro p a t m s
  refine ⟨frag s.par p a t m, rfl, frag_single s.par p a t, fun hm => ?_⟩
  have hmulti := (isMulti_iff m).2 hm
  have hstream : stream m = m ++ [crc8 m] := if_pos hmulti
  have hlen : (stream m).length = m.length + 1 := by rw [hstream, List.length_append, List.length_singleton]
  have hcount : frameCount m = (m.length + 1 + 7) / 8 := if_pos hmulti
  have hflat : (frag s.par p a t m).flatMap Frame.data = stream m := by
    rw [frag, List.flatMap_map]
    refine (flatten_pieces (stream m) (frameCount m)).trans (List.take_of_length_le ?_)
    omega
  simp only [frag_length, getElem_frag, fragment_data, piece_length, hlen, hcount]
  refine ⟨by omega, trivial, hflat.trans hstream, fun j hj => ⟨trivial, by omega, by omega, ?_⟩⟩
  rw [fragment, hmulti, hcount]
  rfl

end Sys2Proof.Machine
end

section
/-! PROOFS. The unacknowledged send (spec/43_ack_retry.md R150, R156): while only TX steps run and every fragment is accepted, the
events emitted and those still to come are together the same list, from the SEND to its end. -/

namespace Sys2Proof.Machine

/-! ## The events of a send -/

/-- The events of one attempt: the frames of FRAG, in order. -/
def attemptEvents (s : State) (p : Prio) (a : Addr) (t : TypeId) (m : List Byte) : List Event :=
  (frag s.par p a t m).map .txf

/-- The events that follow an attempt after `retries` retransmissions: those left, and the failure; or the success at once where
no acknowledgment is awaited (R149, R153, R154). -/
def eventsAfterAttempt (s : State) (p : Prio) (a : Addr) (t : TypeId) (m : List Byte) (retries : Nat) : List Event :=
  if AwaitsAck s m then
    (List.replicate (s.cfg.retryLimit.toNat - retries) (attemptEvents s p a t m)).flatten ++ [.err t a, .done .failNoack]
  else [.done .ok]

/-- The events still to come when the engine's registers are `tx`. -/
def eventsToCome (s : State) (p : Prio) (a : Addr) (t : TypeId) (m : List Byte) (tx : Tx) : List Event :=
  match tx.state with
  | .sending => (attemptEvents s p a t m).drop tx.idx.toNat ++ eventsAfterAttempt s p a t m tx.retries.toNat
  | .waitAck => eventsAfterAttempt s p a t m tx.retries.toNat
  | .idle | .reserved3 => []

section
variable {s : State} {p : Prio} {a : Addr} {t : TypeId} {m : List Byte}

theorem eventsToCome_sending {tx : Tx} (hs : tx.state = .sending) :
    eventsToCome s p a t m tx =
      (attemptEvents s p a t m).drop tx.idx.toNat ++ eventsAfterAttempt s p a t m tx.retries.toNat := by
  rw [eventsToCome, hs]

theorem eventsToCome_waitAck {tx : Tx} (hs : tx.state = .waitAck) :
    eventsToCome s p a t m tx = eventsAfterAttempt s p a t m tx.retries.toNat := by
  rw [eventsToCome, hs]

theorem eventsToCome_idle {tx : Tx} (hs : tx.state = .idle) : eventsToCome s p a t m tx = [] := by
  rw [eventsToCome, hs]

/-- The first event still to come of an attempt is the fragment at TX.idx. -/
theorem attemptEvents_drop {j : Nat} (hj : j < frameCount m) :
    (attemptEvents s p a t m).drop j = .txf (fragment s.par p a t m j) :: (attemptEvents s p a t m).drop (j + 1) := by
  rw [List.drop_eq_getElem_cons (by rwa [attemptEvents, List.length_map, frag_length])]
  simp [attemptEvents]

theorem attemptEvents_drop_all {j : Nat} (hj : frameCount m ≤ j) : (attemptEvents s p a t m).drop j = [] :=
  List.drop_eq_nil_of_le (by rwa [attemptEvents, List.length_map, frag_length])

theorem eventsAfterAttempt_succ (hawait : AwaitsAck s m) {n : Nat} (hn : n < s.cfg.retryLimit.toNat) :
    eventsAfterAttempt s p a t m n = attemptEvents s p a t m ++ eventsAfterAttempt s p a t m (n + 1) := by
  have hleft : s.cfg.retryLimit.toNat - n = s.cfg.retryLimit.toNat - (n + 1) + 1 := by omega
  rw [eventsAfterAttempt, eventsAfterAttempt, if_pos hawait, if_pos hawait, hleft, List.replicate_succ, List.flatten_cons,
    List.append_assoc]

theorem eventsAfterAttempt_exhausted (hawait : AwaitsAck s m) {n : Nat} (hn : s.cfg.retryLimit.toNat ≤ n) :
    eventsAfterAttempt s p a t m n = [.err t a, .done .failNoack] := by
  rw [eventsAfterAttempt, if_pos hawait, Nat.sub_eq_zero_of_le hn]
  rfl

end

/-! ## The engine during the send -/

/-- What `u` holds of the message that a SEND in `s` started, and no TX step changes: the registers other than TX.state, TX.idx,
TX.retries and TX.wait_start, the stream in TXB, and a slot without acknowledgment. -/
structure HoldsMessage (s : State) (p : Prio) (a : Addr) (t : TypeId) (m : List Byte) (u : State) : Prop where
  par : u.par = s.par
  cfg : u.cfg = s.cfg
  unacked : AwaitsAck s m → u.ack.satisfied = false
  prio : u.tx.prio = p
  addr : u.tx.addr = a
  typ : u.tx.typ = t
  multi : u.tx.multi = isMulti m
  slen : u.tx.slen.toNat = (stream m).length
  nfrag : u.tx.nfrag.toNat = frameCount m
  bytes : txbRead u 0 (stream m).length = some (stream m)

/-- `u` is a state of the send that a SEND in `s` started, when only TX steps ran since and every fragment was accepted. -/
structure InSend (s : State) (p : Prio) (a : Addr) (t : TypeId) (m : List Byte) (u : State) : Prop
    extends HoldsMessage s p a t m u where
  idx_lt : u.tx.idx.toNat < frameCount m
  legal : u.tx.state ≠ .reserved3
  wait : u.tx.state = .waitAck → AwaitsAck s m
  trace : u.trace ++ eventsToCome s p a t m u.tx =
    s.trace ++ (attemptEvents s p a t m ++ eventsAfterAttempt s p a t m 0)

/-- A SEND that starts (R141). -/
theorem inSend_loadSend {s : State} (p : Prio) (a : Addr) (t : TypeId) {m : List Byte} (hpar : s.par.Ok)
    (hm : m.length ≤ s.par.txCap) : InSend s p a t m (loadSend s p a t m) where
  par := rfl
  cfg := rfl
  unacked hawait := congrArg AckSlot.satisfied (if_pos hawait)
  prio := rfl
  addr := rfl
  typ := rfl
  multi := rfl
  slen := toLen_stream hpar hm
  nfrag := toLen_frameCount hpar hm
  bytes := Memory.readBytes_writeBytes s.txb 0 (stream m)
  idx_lt := frameCount_pos m
  legal := TxState.noConfusion
  wait := TxState.noConfusion
  trace := rfl

section
variable {s u v : State} {p : Prio} {a : Addr} {t : TypeId} {m : List Byte}

theorem HoldsMessage.of_eq (h : HoldsMessage s p a t m u) (hpar : v.par = u.par) (hcfg : v.cfg = u.cfg) (hack : v.ack = u.ack)
    (htxb : v.txb = u.txb)
    (htx : v.tx = { u.tx with
      state := v.tx.state, idx := v.tx.idx, retries := v.tx.retries, waitStart := v.tx.waitStart }) :
    HoldsMessage s p a t m v where
  par := hpar.trans h.par
  cfg := hcfg.trans h.cfg
  unacked := hack ▸ h.unacked
  prio := htx ▸ h.prio
  addr := htx ▸ h.addr
  typ := htx ▸ h.typ
  multi := htx ▸ h.multi
  slen := htx ▸ h.slen
  nfrag := htx ▸ h.nfrag
  bytes := by rw [txbRead, htxb]; exact h.bytes

theorem HoldsMessage.awaitsAck_iff (h : HoldsMessage s p a t m u) :
    (u.tx.multi = true ∧ 0 < u.cfg.retryLimit.toNat) ↔ AwaitsAck s m := by
  rw [h.multi, h.cfg, isMulti_iff]

/-- A fragment begins inside the stream. -/
theorem fragment_offset_le {j : Nat} (hj : j < frameCount m) : 8 * j ≤ (stream m).length := by
  rw [frameCount_eq_ite] at hj
  rw [stream_eq_ite]
  split at hj
  · omega
  · next hm =>
    rw [if_neg hm, List.length_append, List.length_singleton]
    omega

theorem HoldsMessage.emit (h : HoldsMessage s p a t m u) (e : Event) : HoldsMessage s p a t m (u.emit e) :=
  h.of_eq rfl rfl rfl rfl rfl

/-- The frame at TX.idx is the fragment of that number (R146). -/
theorem HoldsMessage.currentFrame (h : HoldsMessage s p a t m u) (hidx : u.tx.idx.toNat < frameCount m) :
    currentFrame u = some (fragment s.par p a t m u.tx.idx.toNat) := by
  have hoff : 8 * u.tx.idx.toNat + fragLen (stream m).length u.tx.idx.toNat ≤ (stream m).length := by
    have := fragment_offset_le hidx
    rw [fragLen]
    omega
  have hread := Memory.readBytes_part h.bytes hoff
  rw [Nat.zero_add, ← h.slen] at hread
  rw [currentFrame_of_txbRead hread, h.par, h.prio, h.addr, h.typ, h.multi, h.nfrag, h.slen]
  rfl

/-- While fragments remain, an accepted one is emitted and the next one selected (R148). -/
theorem InSend.txFrag_more (h : InSend s p a t m u) (hs : u.tx.state = .sending) (hmore : u.tx.idx.toNat + 1 < frameCount m)
    (now : Time) :
    ∃ v, exec (.txFrag now true) u = .next v ∧ InSend s p a t m v ∧ v.tx.state = .sending ∧
      v.tx.idx.toNat = u.tx.idx.toNat + 1 ∧ v.tx.retries = u.tx.retries := by
  have hexec := exec_txFrag now hs (h.currentFrame h.idx_lt) true
  rw [afterFragment_more now (h.nfrag ▸ hmore)] at hexec
  have hnext : (u.tx.idx + 1).toNat = u.tx.idx.toNat + 1 := toNat_add_one_of_lt (y := u.tx.nfrag) (by rw [h.nfrag]; omega)
  have htrace := h.trace
  rw [eventsToCome_sending hs, attemptEvents_drop h.idx_lt] at htrace
  refine ⟨_, hexec, ?_, hs, hnext, rfl⟩
  exact
    { h.toHoldsMessage.of_eq rfl rfl rfl rfl rfl with
      idx_lt := hnext.trans_lt hmore
      legal := h.legal
      wait := h.wait
      trace := by
        simpa only [State.setTx_trace, State.setTx_tx, State.emit_trace, State.emit_tx, hs, eventsToCome_sending, hnext,
          List.append_assoc, List.cons_append, List.nil_append] using htrace }

/-- The last fragment of an attempt, accepted, is emitted; then the wait begins now, or the send is complete (R149). -/
theorem InSend.txFrag_last (h : InSend s p a t m u) (hs : u.tx.state = .sending) (hlast : u.tx.idx.toNat + 1 = frameCount m)
    (now : Time) :
    ∃ v, exec (.txFrag now true) u = .next v ∧ InSend s p a t m v ∧
      v.tx.state = (if AwaitsAck s m then .waitAck else .idle) ∧ (AwaitsAck s m → v.tx.waitStart = now) ∧
      v.tx.retries = u.tx.retries := by
  have hexec := exec_txFrag now hs (h.currentFrame h.idx_lt) true
  rw [afterFragment_last now (by rw [State.emit_tx, h.nfrag, hlast])] at hexec
  have htrace := h.trace
  rw [eventsToCome_sending hs, attemptEvents_drop h.idx_lt, attemptEvents_drop_all hlast.ge] at htrace
  by_cases hawait : AwaitsAck s m
  · rw [if_pos ((h.emit _).awaitsAck_iff.2 hawait)] at hexec
    refine ⟨_, hexec, ?_, (if_pos hawait).symm, fun _ => rfl, rfl⟩
    exact
      { h.toHoldsMessage.of_eq rfl rfl rfl rfl rfl with
        idx_lt := h.idx_lt
        legal := TxState.noConfusion
        wait := fun _ => hawait
        trace := by simpa [eventsToCome_waitAck] using htrace }
  · rw [if_neg (mt (h.emit _).awaitsAck_iff.1 hawait)] at hexec
    rw [eventsAfterAttempt, if_neg hawait] at htrace
    refine ⟨_, hexec, ?_, (if_neg hawait).symm, fun ha => absurd ha hawait, rfl⟩
    exact
      { h.toHoldsMessage.of_eq rfl rfl rfl rfl rfl with
        idx_lt := h.idx_lt
        legal := TxState.noConfusion
        wait := TxState.noConfusion
        trace := by simpa [eventsToCome_idle, completeSend] using htrace }

/-- A poll without acknowledgment leaves the wait as it is until the timeout is due, and then begins the next attempt, or fails
the send when no retry is left (R152 to R155). -/
theorem InSend.txWait (h : InSend s p a t m u) (hs : u.tx.state = .waitAck) (now : Time) :
    ∃ v, exec (.txWait now) u = .next v ∧ InSend s p a t m v ∧
      (100 ≤ (now - u.tx.waitStart).toNat →
        (u.tx.retries.toNat < s.cfg.retryLimit.toNat →
          v.tx.state = .sending ∧ v.tx.idx = 0 ∧ v.tx.retries.toNat = u.tx.retries.toNat + 1) ∧
        (s.cfg.retryLimit.toNat ≤ u.tx.retries.toNat → v.tx.state = .idle)) := by
  have hawait := h.wait hs
  have hack := h.unacked hawait
  have hexec := exec_txWait (now := now) hs
  rcases Nat.lt_or_ge (now - u.tx.waitStart).toNat 100 with hearly | hdue
  · rw [pollAck_early hack hearly] at hexec
    exact ⟨u, hexec, h, fun hdue => absurd hearly (Nat.not_lt.2 hdue)⟩
  rw [pollAck_timedOut hack hdue, h.cfg] at hexec
  have htrace := h.trace
  rw [eventsToCome_waitAck hs] at htrace
  rcases Nat.lt_or_ge u.tx.retries.toNat s.cfg.retryLimit.toNat with hleft | hnone
  · have hfirst : (0 : Len).toNat = 0 := rfl
    have hnext := toNat_add_one_of_lt hleft
    rw [if_pos hleft] at hexec
    rw [eventsAfterAttempt_succ hawait hleft] at htrace
    refine ⟨_, hexec, ?_, fun _ => ⟨fun _ => ⟨rfl, rfl, hnext⟩, fun hnone => absurd hleft (Nat.not_lt.2 hnone)⟩⟩
    exact
      { h.toHoldsMessage.of_eq rfl rfl rfl rfl rfl with
        idx_lt := frameCount_pos m
        legal := TxState.noConfusion
        wait := TxState.noConfusion
        trace := by
          simpa only [State.setTx_trace, State.setTx_tx, eventsToCome_sending, hfirst, hnext, List.drop_zero] using htrace }
  · rw [if_neg (Nat.not_lt.2 hnone)] at hexec
    rw [eventsAfterAttempt_exhausted hawait hnone] at htrace
    refine ⟨_, hexec, ?_, fun _ => ⟨fun hleft => absurd hleft (Nat.not_lt.2 hnone), fun _ => rfl⟩⟩
    exact
      { h.toHoldsMessage.of_eq rfl rfl rfl rfl rfl with
        idx_lt := h.idx_lt
        legal := TxState.noConfusion
        wait := TxState.noConfusion
        trace := by simpa [eventsToCome_idle, raise, h.typ, h.addr] using htrace }

/-- Every TX step completes and leaves a state of the send. -/
theorem InSend.exec_txStep (h : InSend s p a t m u) (now : Time) :
    ∃ v, exec (txStep u.tx.state now true) u = .next v ∧ InSend s p a t m v := by
  cases hs : u.tx.state with
  | idle => exact ⟨u, rfl, h⟩
  | sending =>
    rcases Nat.lt_or_eq_of_le h.idx_lt with hmore | hlast
    · obtain ⟨v, hv, hin, -⟩ := h.txFrag_more hs hmore now
      exact ⟨v, hv, hin⟩
    · obtain ⟨v, hv, hin, -⟩ := h.txFrag_last hs hlast now
      exact ⟨v, hv, hin⟩
  | waitAck =>
    obtain ⟨v, hv, hin, -⟩ := h.txWait hs now
    exact ⟨v, hv, hin⟩
  | reserved3 => exact absurd hs h.legal

/-! ## Runs of TX steps -/

theorem txeRun_cons_of_next {now : Time} (hv : exec (txStep u.tx.state now true) u = .next v) (times : List Time) :
    txeRun (now :: times) u = txeRun times v := by
  rw [txeRun, hv]

theorem txeRun_append_of_next {times : List Time} (hv : txeRun times u = .next v) (later : List Time) :
    txeRun (times ++ later) u = txeRun later v := by
  induction times generalizing u with
  | nil => cases hv; rfl
  | cons now times ih =>
    rw [List.cons_append, txeRun]
    rw [txeRun] at hv
    split at hv
    · exact ih hv
    · cases hv
    · cases hv

theorem InSend.of_txeRun (h : InSend s p a t m u) {times : List Time} (hrun : txeRun times u = .next v) :
    InSend s p a t m v := by
  induction times generalizing u with
  | nil => cases hrun; exact h
  | cons now times ih =>
    obtain ⟨w, hw, hin⟩ := h.exec_txStep now
    rw [txeRun_cons_of_next hw] at hrun
    exact ih hin hrun

/-- The steps of one attempt: one for each fragment from TX.idx on. -/
theorem InSend.txeRun_attempt (h : InSend s p a t m u) (hs : u.tx.state = .sending) {times : List Time}
    (hlen : u.tx.idx.toNat + times.length = frameCount m) :
    ∃ v, txeRun times u = .next v ∧ InSend s p a t m v ∧ v.tx.retries = u.tx.retries ∧
      v.tx.state = (if AwaitsAck s m then .waitAck else .idle) ∧ (AwaitsAck s m → v.tx.waitStart ∈ times) := by
  induction times generalizing u with
  | nil => exact absurd hlen (Nat.ne_of_lt h.idx_lt)
  | cons now times ih =>
    have hcons : ∀ {w}, exec (.txFrag now true) u = .next w → txeRun (now :: times) u = txeRun times w := fun hw =>
      txeRun_cons_of_next (by rw [hs]; exact hw) times
    cases times with
    | nil =>
      obtain ⟨v, hv, hin, hstate, hstart, hretries⟩ := h.txFrag_last hs hlen now
      exact ⟨v, hcons hv, hin, hretries, hstate, fun hawait => List.mem_singleton.2 (hstart hawait)⟩
    | cons next times =>
      simp only [List.length_cons] at hlen ih
      obtain ⟨w, hw, hin, hsw, hidx, hretries⟩ := h.txFrag_more hs (by omega) now
      obtain ⟨v, hv, hin', hretries', hstate, hstart⟩ := ih hin hsw (by omega)
      exact ⟨v, (hcons hw).trans hv, hin', hretries'.trans hretries, hstate, fun hawait =>
        List.mem_cons_of_mem _ (hstart hawait)⟩

end

/-- Settles O42: after the steps of the first attempt the events to come are those that follow it. -/
theorem attemptTransmitsFrag : Obligations.AttemptTransmitsFrag := by
  intro p a t m s s1 times hinv hidle ht hm hsend hlen
  cases hsend.symm.trans (exec_send_starts p a hidle ht hm)
  have hsteps : 0 + times.length = frameCount m := by rw [Nat.zero_add, hlen, frag_length]
  obtain ⟨u, hu, hin, hretries, hstate, -⟩ := (inSend_loadSend p a t hinv.par hm).txeRun_attempt rfl hsteps
  have hzero : u.tx.retries.toNat = 0 := congrArg BitVec.toNat hretries
  have htrace := hin.trace
  rw [← List.append_assoc] at htrace
  refine ⟨u, hu, ?_⟩
  by_cases hawait : AwaitsAck s m
  · rw [if_pos hawait] at hstate ⊢
    rw [eventsToCome_waitAck hstate, hzero] at htrace
    exact ⟨hstate, List.append_cancel_right htrace⟩
  · rw [if_neg hawait] at hstate ⊢
    rw [eventsToCome_idle hstate, List.append_nil, eventsAfterAttempt, if_neg hawait] at htrace
    exact ⟨hstate, htrace⟩

/-- Settles O43: at the end no event is to come, so all those of the send have been emitted. -/
theorem retryCountLaw : Obligations.RetryCountLaw := by
  intro p a t m s s1 u times hinv hidle ht hlong hm hretry hsend hrun hend
  cases hsend.symm.trans (exec_send_starts p a hidle ht hm)
  have htrace := ((inSend_loadSend p a t hinv.par hm).of_txeRun hrun).trace
  rw [eventsToCome_idle hend, List.append_nil, eventsAfterAttempt, if_pos ⟨hlong, hretry⟩,
    ← List.append_assoc (attemptEvents ..), ← List.flatten_cons, ← List.replicate_succ, ← List.append_assoc] at htrace
  exact htrace

/-! ## A send that comes to its end -/

/-- Times for the steps of an attempt and of a poll at which the timeout is due. -/
def attemptTimes (m : List Byte) : List Time := List.replicate (frameCount m) 0 ++ [100]

section
variable {s u : State} {p : Prio} {a : Addr} {t : TypeId} {m : List Byte} (hawait : AwaitsAck s m)
include hawait

/-- An attempt and a poll that times out begin the next attempt, or end the send when no retry is left. -/
theorem InSend.txeRun_attemptTimes (h : InSend s p a t m u) (hs : u.tx.state = .sending) (hidx : u.tx.idx = 0) :
    ∃ v, txeRun (attemptTimes m) u = .next v ∧ InSend s p a t m v ∧
      (u.tx.retries.toNat < s.cfg.retryLimit.toNat →
        v.tx.state = .sending ∧ v.tx.idx = 0 ∧ v.tx.retries.toNat = u.tx.retries.toNat + 1) ∧
      (s.cfg.retryLimit.toNat ≤ u.tx.retries.toNat → v.tx.state = .idle) := by
  have hsteps : u.tx.idx.toNat + (List.replicate (frameCount m) (0 : Time)).length = frameCount m := by
    rw [hidx, List.length_replicate]
    exact Nat.zero_add _
  obtain ⟨w, hw, hin, hretries, hstate, hstart⟩ := h.txeRun_attempt hs hsteps
  rw [if_pos hawait] at hstate
  have hzero : w.tx.waitStart = 0 := List.eq_of_mem_replicate (hstart hawait)
  obtain ⟨v, hv, hin', hdue⟩ := hin.txWait hstate 100
  rw [hzero, hretries] at hdue
  refine ⟨v, ?_, hin', hdue (by decide)⟩
  rw [attemptTimes, txeRun_append_of_next hw]
  exact txeRun_cons_of_next (by rw [hstate]; exact hv) []

/-- With `k` retries left, `k + 1` attempts and timeouts end the send. -/
theorem InSend.txeRun_ends {k : Nat} (h : InSend s p a t m u) (hs : u.tx.state = .sending) (hidx : u.tx.idx = 0)
    (hk : u.tx.retries.toNat + k = s.cfg.retryLimit.toNat) :
    ∃ v, txeRun (List.replicate (k + 1) (attemptTimes m)).flatten u = .next v ∧ v.tx.state = .idle := by
  induction k generalizing u with
  | zero =>
    obtain ⟨v, hv, -, -, hend⟩ := h.txeRun_attemptTimes hawait hs hidx
    refine ⟨v, ?_, hend hk.ge⟩
    rwa [List.replicate_one, List.flatten_singleton]
  | succ k ih =>
    obtain ⟨w, hw, hin, hagain, -⟩ := h.txeRun_attemptTimes hawait hs hidx
    obtain ⟨hsw, hidx', hretries⟩ := hagain (by omega)
    obtain ⟨v, hv, hend⟩ := ih hin hsw hidx' (by omega)
    refine ⟨v, ?_, hend⟩
    rw [List.replicate_succ, List.flatten_cons, txeRun_append_of_next hw, hv]

end

/-- Settles O44: N + 1 times the steps of an attempt and of a poll that times out. -/
theorem unacknowledgedSendEnds : Obligations.UnacknowledgedSendEnds := by
  intro p a t m s s1 hinv hidle ht hlong hm hretry hsend
  cases hsend.symm.trans (exec_send_starts p a hidle ht hm)
  obtain ⟨u, hu, hend⟩ := (inSend_loadSend p a t hinv.par hm).txeRun_ends ⟨hlong, hretry⟩ rfl rfl (Nat.zero_add _)
  exact ⟨_, u, by simp [attemptTimes], hu, hend⟩

end Sys2Proof.Machine
end

section
/-! PROOFS. Dispatch and configuration (spec/44_dispatch_config.md R170 to R174): the filter's two answers, what REG and RESET
leave, and the commands without effect. -/

namespace Sys2Proof.Machine

/-! ## DISPATCH and ACK_EMIT (R172, R85) -/

theorem dispatchPasses_eq_false_iff (s : State) (t : TypeId) (bytes : List Byte) :
    dispatchPasses s t bytes = false ↔ (s.regAt t).valid = false ∨ bytes.length < (s.regAt t).size.toNat := by
  rw [dispatchPasses, Bool.and_eq_false_iff, decide_eq_false_iff_not, Nat.not_le]

section
variable {s : State} {t : TypeId} {bytes : List Byte}

theorem exec_dispatch_delivers (hv : (s.regAt t).valid = true) (hsize : (s.regAt t).size.toNat ≤ bytes.length) :
    exec (.dispatch t bytes) s = .next (s.emit (.deliver t bytes)) :=
  congrArg _ (if_pos ((dispatchPasses_iff s t bytes).2 ⟨hv, hsize⟩))

theorem exec_dispatch_drops (h : (s.regAt t).valid = false ∨ bytes.length < (s.regAt t).size.toNat) :
    exec (.dispatch t bytes) s = .next s :=
  congrArg _ (if_neg (ne_true_of_eq_false ((dispatchPasses_eq_false_iff s t bytes).2 h)))

end

/-- Settles O27: the filter's two answers, which hold of every type. -/
theorem dispatchFilters : Obligations.DispatchFilters :=
  fun _ _ _ _ => ⟨fun hv => exec_dispatch_drops (.inl hv), fun _ hshort => exec_dispatch_drops (.inr hshort),
    exec_dispatch_delivers⟩

/-- Settles O29: the filter's answers do not ask for the type, and the acknowledgment frame's payload is the type. -/
theorem internalFunctionsOnType7 : Obligations.InternalFunctionsOnType7 :=
  fun _ _ _ _ => ⟨exec_dispatch_delivers, exec_dispatch_drops, rfl⟩

/-! ## CFG_RETRY, REG, NOP (R170, R171, R173) -/

/-- Settles O30: NOP and TX_IDLE answer the state they are given. -/
theorem operationsWithoutEffect : Obligations.OperationsWithoutEffect :=
  fun _ => ⟨rfl, fun _ => rfl⟩

theorem exec_cfgRetry_of_idle (limit : Retry) {s : State} (hidle : s.tx.state = .idle) :
    exec (.cfgRetry limit) s = .next (s.setCfg { retryLimit := limit }) := by
  rw [exec, execCfgRetry, (txBusy_eq_false_iff s).2 hidle]
  rfl

/-- Settles O32: an idle engine takes the limit, and a busy one holds the command. -/
theorem cfgRetryWritesLimit : Obligations.CfgRetryWritesLimit :=
  fun limit s => ⟨exec_cfgRetry_of_idle limit,
    fun hbusy => IsHeldCommand.exec_of_busy (.inr ⟨limit, rfl⟩) ((txBusy_iff s).2 hbusy)⟩

theorem State.regAt_setReg_of_ne (s : State) {t j : TypeId} (e : RegEntry) (h : t ≠ j) :
    (s.setReg t e).regAt j = s.regAt j := by
  rw [State.regAt_setReg, if_neg h]

/-- Settles O33: REG is one write to the registry. -/
theorem regRegisters : Obligations.RegRegisters :=
  fun t size s => ⟨s.setReg t { valid := true, size := size }, rfl, s.regAt_setReg_self t _,
    fun _ hj => s.regAt_setReg_of_ne _ hj.symm, rfl⟩

/-! ## RESET (R174, R215) -/

@[simp] theorem resetState_regAt_valid (s : State) (t : TypeId) : ((resetState s).regAt t).valid = false :=
  State.afterReset_regAt_valid s.par (s.freeCount + 1) t

@[simp] theorem resetState_raAt_valid (s : State) (k : Key) : ((resetState s).raAt k).valid = false :=
  State.afterReset_raAt_valid s.par (s.freeCount + 1) k

/-- Settles O36: the state after reset has no valid entry in either table, and the other elements are as `resetState` writes
them. -/
theorem resetPutsResetValues : Obligations.ResetPutsResetValues :=
  fun s => ⟨resetState s, rfl, rfl, resetState_regAt_valid s, rfl, rfl, resetState_raAt_valid s, rfl, rfl, rfl, rfl⟩

end Sys2Proof.Machine
end

section
/-! PROOFS. Time and control (spec/10_state.md R34, spec/45_arithmetic_control_access.md R177, R179): elapsed time across the wrap
of the time input, and the transitions of the transmit sequencer. -/

namespace Sys2Proof.Machine

/-- Settles O46: subtraction of words is that of numbers where it does not borrow, and wraps once where it does. -/
theorem elapsedTimeAcrossWrap : Obligations.ElapsedTimeAcrossWrap := by
  refine ⟨fun now ts hle => BitVec.toNat_sub_of_le hle, fun now ts hlt => ?_⟩
  have hfits : 2 ^ 32 - ts.toNat + now.toNat < 2 ^ 32 := by omega
  rw [elapsed, BitVec.toNat_sub, Nat.mod_eq_of_lt hfits]
  omega

/-! ## The transitions of TX.state (R179) -/

section
variable {s u : State} {now : Time}

/-- An operation that changes TX.state does not answer the state it is given. -/
theorem exec_ne_next_self {i : Instr} (h : exec i s = .next u) (hne : u.tx.state ≠ s.tx.state) : exec i s ≠ .next s := by
  intro hself
  cases h.symm.trans hself
  exact hne rfl

/-- A SEND changes TX.state only where it starts a message (R141). -/
theorem send_transition {p : Prio} {a : Addr} {t : TypeId} {m : List Byte} (h : exec (.send p a t m) s = .next u)
    (hne : u.tx.state ≠ s.tx.state) : s.tx.state = .idle ∧ u = loadSend s p a t m := by
  have hidle : s.tx.state = .idle := by
    by_contra hbusy
    exact exec_ne_next_self h hne (IsHeldCommand.exec_of_busy (.inl ⟨p, a, t, m, rfl⟩) ((txBusy_iff s).2 hbusy))
  by_cases hrej : t = 7 ∨ s.par.txCap < m.length
  · rw [exec_send_rejected p a hidle hrej] at h
    cases h
    exact absurd rfl hne
  · obtain ⟨ht, hm⟩ := not_or.1 hrej
    rw [exec_send_starts p a hidle ht (Nat.not_lt.1 hm)] at h
    cases h
    exact ⟨hidle, rfl⟩

/-- What a TX_FRAG leaves when it changes TX.state: the send has failed, is complete, or waits for its acknowledgment (R147,
R149). -/
theorem afterFragment_transition {txOk : Bool} (hne : (afterFragment s now txOk).tx.state ≠ s.tx.state) :
    (txOk = false ∧ afterFragment s now txOk = raise .failTransport s) ∨
    (txOk = true ∧ afterFragment s now txOk = completeSend s) ∨
    (txOk = true ∧ afterFragment s now txOk = s.setTx { s.tx with waitStart := now, state := .waitAck }) := by
  cases txOk with
  | false => exact .inl ⟨rfl, rfl⟩
  | true =>
    rcases Nat.lt_or_ge (s.tx.idx.toNat + 1) s.tx.nfrag.toNat with hmore | hlast
    · rw [afterFragment_more now hmore] at hne
      exact absurd rfl hne
    · rw [afterFragment_last now hlast]
      split
      · exact .inr (.inr ⟨rfl, rfl⟩)
      · exact .inr (.inl ⟨rfl, rfl⟩)

/-- A TX_FRAG that changes TX.state is one that SENDING selects and whose frame can be read (R146). -/
theorem txFrag_transition {txOk : Bool} (h : exec (.txFrag now txOk) s = .next u) (hne : u.tx.state ≠ s.tx.state) :
    s.tx.state = .sending ∧ ∃ f, u = afterFragment (s.emit (.txf f)) now txOk := by
  obtain ⟨-, hheld, -⟩ := unselectedTransmitSteps now txOk s
  have hs : s.tx.state = .sending := by_contra fun hs => exec_ne_next_self h hne (hheld hs)
  cases hf : currentFrame s with
  | none =>
    rw [exec, execTxFrag, if_pos hs, hf] at h
    cases h
  | some f =>
    rw [exec_txFrag now hs hf] at h
    cases h
    exact ⟨hs, f, rfl⟩

/-- What a poll leaves when it changes TX.state: the send is complete, begins another attempt, or has failed (R151, R153, R154). -/
theorem pollAck_transition (hne : (pollAck s now).tx.state ≠ s.tx.state) :
    pollAck s now = completeSend s ∨
    pollAck s now = s.setTx { s.tx with retries := s.tx.retries + 1, idx := 0, state := .sending } ∨
    pollAck s now = raise .failNoack s := by
  cases hack : s.ack.satisfied with
  | true => exact .inl (pollAck_satisfied hack)
  | false =>
    rcases Nat.lt_or_ge (now - s.tx.waitStart).toNat 100 with hearly | hdue
    · rw [pollAck_early hack hearly] at hne
      exact absurd rfl hne
    · rw [pollAck_timedOut hack hdue]
      split
      · exact .inr (.inl rfl)
      · exact .inr (.inr rfl)

/-- A TX_WAIT that changes TX.state is one that WAIT_ACK selects. -/
theorem txWait_transition (h : exec (.txWait now) s = .next u) (hne : u.tx.state ≠ s.tx.state) :
    s.tx.state = .waitAck ∧ u = pollAck s now := by
  obtain ⟨-, -, hheld, -⟩ := unselectedTransmitSteps now true s
  have hs : s.tx.state = .waitAck := by_contra fun hs => exec_ne_next_self h hne (hheld hs)
  rw [exec_txWait hs] at h
  cases h
  exact ⟨hs, rfl⟩

end

/-- Settles O52: only RESET, SEND, TX_FRAG and TX_WAIT write TX.state, and each changes it along its own rows of the table. -/
theorem sequencerTransitions : Obligations.SequencerTransitions := by
  intro i s u h hne
  obtain ⟨-, -, -, -, hwriter, -⟩ := onlyTheNamedWriters i s u h
  rcases hwriter hne with rfl | ⟨p, a, t, m, rfl⟩ | ⟨now, txOk, rfl⟩ | ⟨now, rfl⟩
  · cases h
    exact .inl ⟨rfl, rfl⟩
  · obtain ⟨hidle, rfl⟩ := send_transition h hne
    exact .inr (.inl ⟨hidle, rfl, rfl, rfl, p, a, t, m, rfl⟩)
  · obtain ⟨hs, f, rfl⟩ := txFrag_transition h hne
    rcases afterFragment_transition hne with ⟨rfl, e⟩ | ⟨rfl, e⟩ | ⟨rfl, e⟩ <;> rw [e]
    · exact .inr (.inr (.inl ⟨hs, rfl, rfl, now, f, false, rfl, .inl ⟨rfl, List.append_assoc ..⟩⟩))
    · exact .inr (.inr (.inl ⟨hs, rfl, rfl, now, f, true, rfl, .inr ⟨rfl, List.append_assoc ..⟩⟩))
    · exact .inr (.inr (.inr (.inl ⟨hs, rfl, rfl, now, f, rfl, rfl, rfl⟩)))
  · obtain ⟨hs, rfl⟩ := txWait_transition h hne
    rcases pollAck_transition hne with e | e | e <;> rw [e]
    · exact .inr (.inr (.inr (.inr (.inl ⟨hs, rfl, rfl, ⟨now, rfl⟩, .inl rfl⟩))))
    · exact .inr (.inr (.inr (.inr (.inr ⟨hs, rfl, rfl, rfl, rfl, now, rfl⟩))))
    · exact .inr (.inr (.inr (.inr (.inl ⟨hs, rfl, rfl, ⟨now, rfl⟩, .inr (List.append_assoc ..)⟩))))

end Sys2Proof.Machine
end

section
/-! PROOFS. Exceptional completions (spec/60_exceptions.md R195): an error notification takes a wait for an acknowledgment, and
in a state with the invariant nothing waits while the retry limit is 0 (R149). -/

namespace Sys2Proof.Machine

/-- ERR is emitted only by an operation that ends a wait for an acknowledgment (R154). -/
theorem Emits.waitAck_of_err_mem {s : State} {i : Instr} {es : List Event} {t : TypeId} {a : Addr} (hemits : Emits s i es)
    (herr : Event.err t a ∈ es) : s.tx.state = .waitAck := by
  cases hemits with
  | txWaitExhausted _ hwait => exact hwait
  | _ => simp at herr

/-- A wait is that of a message in retry-mode (R149). -/
theorem BlockInv.retryLimit_pos_of_waitAck {s : State} (h : BlockInv s) (hwait : s.tx.state = .waitAck) :
    0 < s.cfg.retryLimit.toNat :=
  ((h.send (hwait ▸ TxState.noConfusion)).wait hwait).2

/-- Settles O54: a new ERR would end a wait, which the invariant excludes while the retry limit is 0. -/
theorem noErrorWithoutRetries : Obligations.NoErrorWithoutRetries := by
  intro i s u hinv hlimit hexec t a herr
  obtain ⟨es, htrace, hemits⟩ := exec_appends hexec
  rw [htrace, List.mem_append] at herr
  refine herr.resolve_right fun hnew => ?_
  have hpos := hinv.retryLimit_pos_of_waitAck (hemits.waitAck_of_err_mem hnew)
  rw [hlimit] at hpos
  exact Nat.lt_irrefl 0 hpos

end Sys2Proof.Machine
end

section
/-! PROOFS. Reset (spec/70_reset_and_hazards.md R215) and the model's own guards: what reset leaves, and the states
in which an operation stops by name. -/

namespace Sys2Proof.Machine

/-! ## Reset (R215) -/

/-- Settles O37: no table has a valid entry after a reset, and the other values are those `State.afterReset` writes. -/
theorem resetStateValues : Obligations.ResetStateValues :=
  ⟨rfl, State.afterReset_regAt_valid Params.default 0, rfl, rfl, State.afterReset_raAt_valid Params.default 0, rfl⟩

/-- The defaults of R8 and R83 meet the constraints on the parameters. -/
theorem ok_paramsDefault : Params.default.Ok := by decide

/-- Settles O55: every reset leaves a state with the invariant, and the defaults are an admitted choice. -/
theorem invariantAfterReset : Obligations.InvariantAfterReset :=
  ⟨blockInv_afterReset ok_paramsDefault 0, fun _ n hpar => blockInv_afterReset hpar n⟩

/-! ## The guards of the memories (R60) -/

/-- Bytes written at the end of a range do not make the range readable. -/
theorem Memory.readBytes_writeBytes_end_eq_none {m : Memory} {a n : Nat} (h : m.readBytes a n = none) (bs : List Byte) :
    (m.writeBytes (a + n) bs).readBytes a (n + bs.length) = none := by
  refine Option.eq_none_iff_forall_ne_some.2 fun all hall => ?_
  have hpart := Memory.readBytes_part (d := 0) hall (show 0 + n ≤ n + bs.length by omega)
  rw [Nat.add_zero, Memory.readBytes_writeBytes_apart m (a + n) bs (.inl (Nat.le_refl _)), h] at hpart
  cases hpart

/-- A write past RA_CAP is an overrun. -/
theorem rabWrite_overruns {s : State} {k : Key} {off : Nat} {bs : List Byte} (h : ∃ c ∈ s.par.raCap, c < off + bs.length) :
    rabWrite s k off bs = .error .bufferOverrun := by
  refine if_neg fun hwithin => ?_
  obtain ⟨c, hc, hlt⟩ := h
  exact Nat.not_le.2 hlt ((withinCap_iff s _).1 hwithin c hc)

section
variable {s : State} {now : Time} (p : Prio) (a : Addr) (t : TypeId) (data : List Byte)

/-- RX_END reads the accumulated bytes together with its payload, and stops when one of them was never written. -/
theorem exec_rxEnd_unwritten {k : Key} (hk : kidx (packId p a s.par.seqEnd t) = k) (hv : (s.raAt k).valid = true)
    (hts : (now - (s.raAt k).ts).toNat ≤ 500) (hroom : ∀ c ∈ s.par.raCap, (s.raAt k).len + data.length ≤ c)
    (hread : rabRead s k 0 (s.raAt k).len = none) : exec (.rxEnd p a t data now) s = .fault .unwrittenByte := by
  have hwhole := Memory.readBytes_writeBytes_end_eq_none hread data
  rw [Nat.zero_add] at hwhole
  rw [exec_rxEnd p a t data hk, onLive_live hv hts hroom, hwhole, Option.elim_none]

/-- RX_START writes its payload from offset 0, and stops when that is longer than the buffer. -/
theorem exec_rxStart_overruns (hlong : ∃ c ∈ s.par.raCap, c < data.length) :
    exec (.rxStart p a t data now) s = .fault .bufferOverrun :=
  congrArg outcome (rabWrite_overruns (by simpa only [Nat.zero_add, State.setRa_par] using hlong))

/-- TX_FRAG reads the bytes of its fragment, and stops when one of them was never written. -/
theorem exec_txFrag_unwritten (hs : s.tx.state = .sending)
    (hread : txbRead s (8 * s.tx.idx.toNat) (fragLen s.tx.slen.toNat s.tx.idx.toNat) = none) (txOk : Bool) :
    exec (.txFrag now txOk) s = .fault .unwrittenByte := by
  have hframe : currentFrame s = none := by rw [currentFrame, hread]
  rw [exec, execTxFrag, if_pos hs, hframe]

end

/-- CKSUM_OK has no answer for the empty sequence (R112). -/
theorem exec_cksumOk_nil (s : State) : exec (.cksumOk []) s = .refused .emptyChecksumOperand := by
  rw [exec, execCksumOk, cksumOk_nil]

/-- Settles O24: each guard in the state that meets it. -/
theorem stopsByName : Obligations.StopsByName :=
  fun p a t data _ txOk s => ⟨exec_rxEnd_unwritten p a t data rfl, fun hs hread => exec_txFrag_unwritten hs hread txOk,
    exec_rxStart_overruns p a t data, exec_cksumOk_nil s⟩

end Sys2Proof.Machine
end
